-- ==== Sys2Proof/Word.lean ====
section
/-! DEFINITION. The two words of the block: a 4-bit coil pattern and a 6-bit command word. -/

namespace Sys2Proof

/-- A pattern: four bits, bit 0 the least significant, bit `i` for coil line `i` (R8, R25). -/
abbrev Pattern := BitVec 4

/-- A command word `cmd[5:0]` (R34). -/
abbrev CmdWord := BitVec 6

end Sys2Proof
end

