-- ==== Sys2Proof/Syntax.lean ====
section
/-! DEFINITION. The commands of the block, one constructor per row of spec/opcode_table.json. -/

namespace Sys2Proof

/-- The sequencer's two directions (R36). -/
inductive Dir where
  | forward
  | backward
  deriving DecidableEq, Repr

/-- The three recognised step styles (R37). -/
inductive Style where
  | single
  | double
  | interleave
  deriving DecidableEq, Repr

/-- STEP's style operand: a recognised style, or the fourth value of the field, which is well formed
and makes STEP fail (R37). -/
inductive StyleOperand where
  | known (y : Style)
  | unrecognised
  deriving DecidableEq, Repr

/-- The commands (R35, R39). RUN carries the time presented beside its word (R34, R40); the three
ignored bits of the other words are no operand (R38, R44). -/
inductive Instr where
  /-- STEP, R46. -/
  | step (dir : Dir) (style : StyleOperand)
  /-- RELEASE, R47. -/
  | release
  /-- INIT, R52. -/
  | init
  /-- RUN `@now`, R53. -/
  | run (now : Nat)
  /-- GETPOS, R54. -/
  | getpos
  /-- ISCLOSED, R55. -/
  | isclosed
  /-- A reserved word with `op = 0`, R39. -/
  | reserved0
  /-- A reserved word with `op = 7`, R39. -/
  | reserved7
  deriving DecidableEq, Repr

end Sys2Proof
end

