-- ==== Sys2Proof/Config.lean ====
section
/-! DEFINITION. The parameters of one instance (R3 to R6). Fixed at construction, never state of the
block; which values are legal is `Machine.configOK` (R7). -/

namespace Sys2Proof

/-- One choice of every parameter. `TICK` is left out: it is informative and no rule reads it (R6). -/
structure Config where
  /-- `T_SINGLE` (R3). -/
  tSingle : List Pattern
  /-- `T_DOUBLE` (R3). -/
  tDouble : List Pattern
  /-- `T_INTERLEAVE` (R3). -/
  tInterleave : List Pattern
  /-- `MAX_PULSES` (R4); an integer, so that an illegal value can be written down. -/
  maxPulses : Int
  /-- `OVERDRIVE` (R4). -/
  overdrive : Int
  /-- `SPEEDS`, in whole ticks (R4). -/
  speeds : List Nat
  /-- `EEV_STYLE` (R5). -/
  eevStyle : Style
  /-- `CW`, the width of `counter` (R6). -/
  cw : Nat
  /-- `PW`, the width of `position` and `target_position` (R6). -/
  pw : Nat
  /-- `TW`, the width of `now` and `next_step_time` (R6). -/
  tw : Nat
  deriving DecidableEq, Repr

/-- The instance behind `State.reset`. The tables, `EEV_STYLE` and the widths are the spec's defaults
(R3, R5, R6). DESIGN CHOICE (log entry 2): R4 gives `MAX_PULSES`, `OVERDRIVE` and `SPEEDS` no default;
the three values here are those of the spec's vector V-CFG-1. -/
def Config.standard : Config where
  tSingle := [1#4, 2#4, 4#4, 8#4]
  tDouble := [3#4, 6#4, 12#4, 9#4]
  tInterleave := [1#4, 3#4, 2#4, 6#4, 4#4, 12#4, 8#4, 9#4]
  maxPulses := 100
  overdrive := 10
  speeds := [1000, 2000]
  eevStyle := .single
  cw := 32
  pw := 32
  tw := 64

end Sys2Proof
end

