-- ==== Sys2Proof/Machine/State.lean ====
section
/-! DEFINITION. State as plain data: the nine elements of R11 to R17, the registered outputs of R42, the
instance's configuration and the host's pending inputs; the reasons a step can stop; the reset state. -/

namespace Sys2Proof.Machine

/-- The controller's two target directions (R16). -/
inductive TargetDir where
  | closing
  | opening
  deriving DecidableEq, Repr

/-- The response status (R41). -/
inductive Status where
  | ok
  | invalidArgument
  | unknownPosition
  | illegalCommand
  deriving DecidableEq, Repr

/-- The three run-time errors (R60). -/
inductive RunError where
  /-- STEP with an unrecognised style (R61). -/
  | invalidArgument
  /-- RUN, GETPOS or ISCLOSED while the position is unknown (R62). -/
  | unknownPosition
  /-- A reserved command word (R63). -/
  | illegalCommand
  deriving DecidableEq, Repr

/-- One response `(status, data)`; `data` is the integer that the port carries on `DW` bits (R41). -/
structure Response where
  status : Status
  data : Int
  deriving DecidableEq, Repr

/-- One output write `set_line(level)` (R27). -/
structure CoilWrite where
  line : Fin 4
  level : Bool
  deriving DecidableEq, Repr

/-- What the host presents at one rising edge (R42): the inputs `rst`, `cmd_valid`, `cmd` and `now`. -/
structure PortInput where
  rst : Bool
  cmdValid : Bool
  cmd : CmdWord
  now : Nat
  deriving DecidableEq, Repr

/-- The controller's three states, a function of the state elements (R18). -/
inductive Phase where
  | uninitialized
  | homing
  | idleAtTarget
  deriving DecidableEq, Repr

/-- The machine. The first nine fields after `cfg` are the whole architectural state (R19, R22). -/
structure State where
  /-- The configuration of this instance (R3 to R6). Not state of the block: no step writes it. -/
  cfg : Config
  /-- The microstep counter (R11). -/
  counter : Int
  /-- The active table; `none` is NONE (R12). -/
  active : Option Style
  /-- The active pattern (R13). -/
  pattern : Pattern
  /-- The level last driven onto each coil line (R14). -/
  coil : Pattern
  /-- The valve position; `none` is `UNKNOWN` (R15). -/
  position : Option Int
  /-- R16. -/
  targetPosition : Int
  /-- R16. -/
  targetDir : TargetDir
  /-- The speed level, an index into `SPEEDS` (R16). -/
  targetLevel : Nat
  /-- The pacing clock, in ticks (R17, R71). -/
  nextStepTime : Nat
  /-- The response port: `none` is `rsp_valid = 0` (R42). -/
  response : Option Response
  /-- The output writes of the last edge: none, or the four of one `CoilDrive` (R27). -/
  coilWrites : List CoilWrite
  /-- What the host presents at the coming edges, the next one first; past its end no command is
  presented. The environment's side, not state of the block (log entry 3). -/
  hostInputs : List PortInput
  deriving DecidableEq, Repr

/-- What stops the machine with a fault: nothing. Every run-time error of the spec is a response after
which the block goes on (R60, R68, R69), so this type has no constructor (log entry 9). -/
inductive Fault where
  deriving DecidableEq, Repr

/-- Why the model gives a step no meaning. -/
inductive Refusal where
  /-- Raised by an arm of `exec` that has no meaning yet (none is left). Safe: nothing is claimed. -/
  | notModelled (mnemonic : String)
  /-- Raised by STEP and RUN when the new `counter` would leave its `CW`-bit range (R6, R45). Safe:
  the spec says a model refuses. -/
  | counterOutOfRange
  /-- Raised by RUN when the new `next_step_time` would leave its `TW`-bit range (R6, R53). Safe. -/
  | timeOutOfRange
  /-- Raised by RUN when the new `position` would leave its `PW`-bit range (R6; log entry 5). Safe, and
  never raised in a reachable state. -/
  | positionOutOfRange
  /-- Raised by RUN when `target_level` is no index of `SPEEDS`; R24 says that never happens (log
  entry 6). Safe, and never raised in a reachable state. -/
  | speedLevelOutOfRange
  /-- Raised by `step` in a configuration that is not well formed, and by a table read in an empty
  table: no such instance exists (R7, R64, U1; log entry 7). Safe. -/
  | configurationError
  /-- Raised by `step` when a presented RUN carries a `now` that `TW` bits cannot hold (R6, R40; log
  entry 8). Safe. -/
  | nowOutOfRange
  deriving DecidableEq, Repr

/-- The reset state of an instance (R75): a newly constructed sequencer and controller. No output
write happened (R76), and the host has presented nothing yet. -/
def State.atReset (c : Config) : State where
  cfg := c
  counter := 0
  active := none
  pattern := 0#4
  coil := 0#4
  position := none
  targetPosition := 0
  targetDir := .closing
  targetLevel := 0
  nextStepTime := 0
  response := none
  coilWrites := []
  hostInputs := []

/-- The machine right after reset, for the instance `Config.standard` (log entry 2). -/
def State.reset : State := State.atReset Config.standard

end Sys2Proof.Machine
end

