-- ==== Sys2Proof/Machine/Operands.lean ====
section
/-! DEFINITION. What commands compute with: the tables a style and a level select, the floored modulo,
the change a direction makes, the ranges of R6, and `ConfigOK` (R7). -/

namespace Sys2Proof.Machine

/-- The range of a `w`-bit two's complement number (R6). -/
def fitsSigned (w : Nat) (v : Int) : Bool :=
  decide (-((2 ^ (w - 1) : Nat) : Int) ≤ v ∧ v ≤ ((2 ^ (w - 1) : Nat) : Int) - 1)

/-- The range of a `w`-bit unsigned number (R6). -/
def fitsUnsigned (w t : Nat) : Bool := decide (t ≤ 2 ^ w - 1)

/-- The floored modulo of R8: Lean's `%` on `Int` lies in `[0, L)` for every positive `L`. -/
def fmod (a : Int) (L : Nat) : Nat := (a % (L : Int)).toNat

/-- `Table(style)` (R9). -/
def table (c : Config) : Style → List Pattern
  | .single => c.tSingle
  | .double => c.tDouble
  | .interleave => c.tInterleave

/-- `TableRead(T, i)` (R9, R24); nothing is read outside the table. -/
def tableRead (T : List Pattern) (i : Nat) : Option Pattern := T[i]?

/-- The entry a step of a style selects when it ends at counter `n` (R45): `T[fmod(n, len(T))]`. -/
def entryAt (c : Config) (y : Style) (n : Int) : Option Pattern :=
  tableRead (table c y) (fmod n (table c y).length)

/-- `SpeedRead(k)` (R9, R24). -/
def speedRead (c : Config) (k : Nat) : Option Nat := c.speeds[k]?

/-- What one step adds to `counter` (R45). -/
def stepDelta : Dir → Int
  | .forward => 1
  | .backward => -1

/-- The sequencer direction of a target direction (R53, R56). -/
def sequencerDir : TargetDir → Dir
  | .closing => .backward
  | .opening => .forward

/-- What one emitted step adds to `position` (R53, R56). -/
def positionDelta : TargetDir → Int
  | .closing => -1
  | .opening => 1

/-- `MAX_PULSES + OVERDRIVE`, the position that INIT declares (R52). -/
def homePosition (c : Config) : Int := c.maxPulses + c.overdrive

/-- `ConfigOK` (R7). Entries of the tables are in 0..15 and `EEV_STYLE` is a recognised style by their
types. -/
def configOK (c : Config) : Bool :=
  decide (1 ≤ c.tSingle.length) && decide (1 ≤ c.tDouble.length) && decide (1 ≤ c.tInterleave.length) &&
  decide (1 ≤ c.maxPulses) && decide (0 ≤ c.overdrive) &&
  decide (1 ≤ c.speeds.length) && c.speeds.all (fun d => decide (1 ≤ d ∧ d ≤ 2 ^ c.tw - 1)) &&
  decide (2 ≤ c.cw) && decide (2 ≤ c.pw) && decide (1 ≤ c.tw) &&
  decide (homePosition c ≤ ((2 ^ (c.pw - 1) : Nat) : Int) - 1)

/-- The phase of the controller (R18). -/
def phase (s : State) : Phase :=
  match s.position with
  | none => .uninitialized
  | some p => if p = s.targetPosition then .idleAtTarget else .homing

end Sys2Proof.Machine
end

