-- ==== Sys2Proof/Machine/Flags.lean ====
section
/-! DEFINITION. The block has no flags (R19). What reports the outcome of a command is its response:
the status codes and the data values of R41 and R60. -/

namespace Sys2Proof.Machine

/-- `DW`, the width of the response data (R6). -/
def dataWidth (c : Config) : Nat := max c.cw c.pw

/-- The two-bit code of a status (R41). -/
def statusCode : Status → BitVec 2
  | .ok => 0#2
  | .invalidArgument => 1#2
  | .unknownPosition => 2#2
  | .illegalCommand => 3#2

/-- The status an error is reported by (R60). -/
def errorStatus : RunError → Status
  | .invalidArgument => .invalidArgument
  | .unknownPosition => .unknownPosition
  | .illegalCommand => .illegalCommand

/-- GETPOS's data while the position is unknown: `-2^(DW-1)` (R41, R54). -/
def unknownData (c : Config) : Int := -((2 ^ (dataWidth c - 1) : Nat) : Int)

/-- ISCLOSED's data: 1 if `position = 0`, else 0 (R41, R55). -/
def closedData (p : Int) : Int := if p = 0 then 1 else 0

end Sys2Proof.Machine
end

