-- ==== Sys2Proof/Machine/Ops.lean ====
section
/-! DEFINITION. The named operations on the state: driving the coils, the step procedure, responding,
raising an error, and the two kinds of edge without a command. -/

namespace Sys2Proof.Machine

/-- The four writes `set_0(p[0])` to `set_3(p[3])` of one drive, one indivisible event (R27). -/
def driveWrites (p : Pattern) : List CoilWrite :=
  [⟨0, p.getLsbD 0⟩, ⟨1, p.getLsbD 1⟩, ⟨2, p.getLsbD 2⟩, ⟨3, p.getLsbD 3⟩]

/-- `CoilDrive(p)` (R27). -/
def coilDrive (p : Pattern) (s : State) : State :=
  { s with coil := p, coilWrites := driveWrites p }

/-- The command performs no `CoilDrive`: no output write in this edge (R42). -/
def noDrive (s : State) : State := { s with coilWrites := [] }

/-- Put a response on the response port (R41, R42). -/
def setResponse (st : Status) (data : Int) (s : State) : State :=
  { s with response := some ⟨st, data⟩ }

/-- `respond(status, data)`: end the command (R9). -/
def respond (st : Status) (data : Int) (s : State) : Host.Outcome State Fault Refusal :=
  .next (setResponse st data s)

/-- `raise E`: taking a run-time error is its response and nothing else, no state change and no coil
write (R60, R68). There is no return from it: the next command finds the block ready (R69). -/
def raiseError (e : RunError) (data : Int) (s : State) : Host.Outcome State Fault Refusal :=
  respond (errorStatus e) data (noDrive s)

/-- The writes of `SeqStep` (R45). -/
def writeStep (n : Int) (y : Style) (p : Pattern) (s : State) : State :=
  coilDrive p { s with counter := n, active := some y, pattern := p }

/-- `SeqStep(dir, style)` (R45). -/
def seqStep (d : Dir) (y : Style) (s : State) : Except Refusal State :=
  let n := s.counter + stepDelta d
  if fitsSigned s.cfg.cw n then
    match entryAt s.cfg y n with
    | some p => .ok (writeStep n y p s)
    | none => .error .configurationError
  else .error .counterOutOfRange

/-- The controller writes of INIT (R52). -/
def armHoming (s : State) : State :=
  { s with
    targetPosition := 0
    targetDir := .closing
    targetLevel := 0
    position := some (homePosition s.cfg)
    nextStepTime := 0 }

/-- The controller writes of a RUN that emits a step (R53). -/
def recordEmission (p : Int) (t : Nat) (s : State) : State :=
  { s with position := some p, nextStepTime := t }

/-- A RUN whose pacing interval has elapsed, from position `p` (R53): the time is checked first, then
`SeqStep`, then the range of the new position (R6). -/
def emitStep (now : Nat) (p : Int) (s : State) : Host.Outcome State Fault Refusal :=
  match speedRead s.cfg s.targetLevel with
  | none => .refused .speedLevelOutOfRange
  | some d =>
    if fitsUnsigned s.cfg.tw (now + d) then
      match seqStep (sequencerDir s.targetDir) s.cfg.eevStyle s with
      | .error r => .refused r
      | .ok s' =>
        if fitsSigned s.cfg.pw (p + positionDelta s.targetDir) then
          respond .ok 0 (recordEmission (p + positionDelta s.targetDir) (now + d) s')
        else .refused .positionOutOfRange
    else .refused .timeOutOfRange

/-- An edge with `rst = 0` and `cmd_valid = 0`: no state changes, and `rsp_valid` and `coil_we` are 0
in the cycle after it (R42). -/
def idleEdge (s : State) : State := { s with response := none, coilWrites := [] }

/-- An edge with `rst = 1` (R75): every element takes its reset value; the configuration is not
affected, and what the host will present later stays as it is. -/
def applyReset (s : State) : State := { State.atReset s.cfg with hostInputs := s.hostInputs }

end Sys2Proof.Machine
end

