-- ==== Sys2Proof/Machine/Reserved.lean ====
section
/-! DEFINITION. The two groups of reserved words: both end in ILLEGAL_COMMAND (R39, R63). -/

namespace Sys2Proof.Machine

/-- A word with `op = 0` (R63). -/
def execReserved0 (s : State) : Host.Outcome State Fault Refusal :=
  raiseError .illegalCommand 0 s

/-- A word with `op = 7` (R63). -/
def execReserved7 (s : State) : Host.Outcome State Fault Refusal :=
  raiseError .illegalCommand 0 s

end Sys2Proof.Machine
end

