-- ==== Sys2Proof/Machine/Sequencer.lean ====
section
/-! DEFINITION. The sequencer's commands: STEP and RELEASE (40_sequencer.md). -/

namespace Sys2Proof.Machine

/-- STEP (R46). The style is checked before the counter is touched (R67). -/
def execStep (d : Dir) (y : StyleOperand) (s : State) : Host.Outcome State Fault Refusal :=
  match y with
  | .unrecognised => raiseError .invalidArgument 0 s
  | .known y =>
    match seqStep d y s with
    | .ok s' => respond .ok s'.counter s'
    | .error r => .refused r

/-- RELEASE (R47). -/
def execRelease (s : State) : Host.Outcome State Fault Refusal :=
  respond .ok 0 (coilDrive 0#4 s)

end Sys2Proof.Machine
end

