-- ==== Sys2Proof/Machine/Valve.lean ====
section
/-! DEFINITION. The Valve Motion Controller's commands: INIT, RUN, GETPOS, ISCLOSED
(41_valve_controller.md). -/

namespace Sys2Proof.Machine

/-- INIT (R52): no coil write, the sequencer is left alone. -/
def execInit (s : State) : Host.Outcome State Fault Refusal :=
  respond .ok 0 (noDrive (armHoming s))

/-- RUN `@now` (R53). A step is due when `now >= next_step_time` (90_conflicts.md C1). -/
def execRun (now : Nat) (s : State) : Host.Outcome State Fault Refusal :=
  match s.position with
  | none => raiseError .unknownPosition 0 s
  | some p =>
    if p = s.targetPosition then respond .ok 0 (noDrive s)
    else if now < s.nextStepTime then respond .ok 0 (noDrive s)
    else emitStep now p s

/-- GETPOS (R54). -/
def execGetpos (s : State) : Host.Outcome State Fault Refusal :=
  match s.position with
  | none => raiseError .unknownPosition (unknownData s.cfg) s
  | some p => respond .ok p (noDrive s)

/-- ISCLOSED (R55). -/
def execIsclosed (s : State) : Host.Outcome State Fault Refusal :=
  match s.position with
  | none => raiseError .unknownPosition 0 s
  | some p => respond .ok (closedData p) (noDrive s)

end Sys2Proof.Machine
end

