-- ==== Sys2Proof/Machine/Dispatch.lean ====
section
/-! DEFINITION. One arm per command, each one call of the command's meaning. -/

namespace Sys2Proof.Machine

def exec (i : Instr) (s : State) : Host.Outcome State Fault Refusal :=
  match i with
  | .step dir style => Sys2Proof.Machine.execStep dir style s
  | .release => Sys2Proof.Machine.execRelease s
  | .init => Sys2Proof.Machine.execInit s
  | .run now => Sys2Proof.Machine.execRun now s
  | .getpos => Sys2Proof.Machine.execGetpos s
  | .isclosed => Sys2Proof.Machine.execIsclosed s
  | .reserved0 => Sys2Proof.Machine.execReserved0 s
  | .reserved7 => Sys2Proof.Machine.execReserved7 s

end Sys2Proof.Machine
end

