-- ==== Sys2Proof/Decode.lean ====
section
/-! DEFINITION. The decoder of R44, total over the 64 command words, and the encoder of the canonical
words of R43. -/

namespace Sys2Proof

/-- `cmd[5:3]`, which operation (R34). -/
def opField (w : CmdWord) : BitVec 3 := w.extractLsb' 3 3

/-- `cmd[2]`, the direction operand of STEP (R34). -/
def dirField (w : CmdWord) : BitVec 1 := w.extractLsb' 2 1

/-- `cmd[1:0]`, the style operand of STEP (R34). -/
def styleField (w : CmdWord) : BitVec 2 := w.extractLsb' 0 2

/-- R36. -/
def decodeDir (b : BitVec 1) : Dir := if b = 0#1 then .forward else .backward

/-- R37. -/
def decodeStyle (b : BitVec 2) : StyleOperand :=
  if b = 0#2 then .known .single
  else if b = 1#2 then .known .double
  else if b = 2#2 then .known .interleave
  else .unrecognised

/-- The decode function of R44, with the value `now` presented beside the word (R40). Every value of
the three-bit `op` is tested by name; the last branch is `op = 0`. -/
def decode (w : CmdWord) (now : Nat) : Instr :=
  let op := opField w
  if op = 1#3 then .step (decodeDir (dirField w)) (decodeStyle (styleField w))
  else if op = 2#3 then .release
  else if op = 3#3 then .init
  else if op = 4#3 then .run now
  else if op = 5#3 then .getpos
  else if op = 6#3 then .isclosed
  else if op = 7#3 then .reserved7
  else .reserved0

/-- Why a number is no command word. -/
inductive DecodeError where
  /-- It has a bit above `cmd[5]`: the command port has six lines (R42). -/
  | wordTooWide
  deriving DecidableEq, Repr

/-- Decoding of any number as a command word (R34). -/
def decodeNumber (w now : Nat) : Except DecodeError Instr :=
  if w < 64 then .ok (decode (BitVec.ofNat 6 w) now) else .error .wordTooWide

/-- The `op` value of a command (R35). -/
def opOf : Instr → BitVec 3
  | .reserved0 => 0#3
  | .step _ _ => 1#3
  | .release => 2#3
  | .init => 3#3
  | .run _ => 4#3
  | .getpos => 5#3
  | .isclosed => 6#3
  | .reserved7 => 7#3

/-- R36. -/
def encodeDir : Dir → BitVec 1
  | .forward => 0#1
  | .backward => 1#1

/-- R37. -/
def encodeStyle : StyleOperand → BitVec 2
  | .known .single => 0#2
  | .known .double => 1#2
  | .known .interleave => 2#2
  | .unrecognised => 3#2

/-- The word of a command. Except for STEP the three low bits are zero, the canonical spelling of R38.
DESIGN CHOICE (log entry 10): a reserved command is encoded as the canonical word of its group. -/
def encode : Instr → CmdWord
  | .step d y => 1#3 ++ encodeDir d ++ encodeStyle y
  | .release => 2#3 ++ 0#3
  | .init => 3#3 ++ 0#3
  | .run _ => 4#3 ++ 0#3
  | .getpos => 5#3 ++ 0#3
  | .isclosed => 6#3 ++ 0#3
  | .reserved0 => 0#3 ++ 0#3
  | .reserved7 => 7#3 ++ 0#3

/-- The value on `now` that goes with a command: RUN's operand. For every other command the value is
ignored (R40). DESIGN CHOICE (log entry 10): 0 is presented there. -/
def timeOperand : Instr → Nat
  | .run now => now
  | .step _ _ => 0
  | .release => 0
  | .init => 0
  | .getpos => 0
  | .isclosed => 0
  | .reserved0 => 0
  | .reserved7 => 0

/-- What this decoder reads from the number `w` of `nbits` bits, with 0 on `now` (the operand beside
the word is a word of zeros; log entry 3). -/
def decodeTableWord (nbits w : Nat) : Option Instr :=
  match decodeNumber (w % 2 ^ nbits) 0 with
  | .ok i => some i
  | .error .wordTooWide => none

end Sys2Proof
end

