-- ==== Sys2Proof/WellFormed.lean ====
section
/-! DEFINITION. When a command can stand on the command port of an instance. -/

namespace Sys2Proof

/-- RUN's time operand is a `tw`-bit unsigned number (R6, R40). Every other operand value is legal:
both directions (R36) and all four values of the style field (R37). -/
def Instr.wellFormed (tw : Nat) : Instr → Bool
  | .run now => decide (now ≤ 2 ^ tw - 1)
  | .step _ _ => true
  | .release => true
  | .init => true
  | .getpos => true
  | .isclosed => true
  | .reserved0 => true
  | .reserved7 => true

end Sys2Proof
end

