-- ==== Sys2Proof/Machine/Ports.lean ====
section
/-! DEFINITION. The ports of R42: what an edge samples from the host, and what the outputs show. -/

namespace Sys2Proof.Machine

/-- An edge at which the host presents no command. -/
def idleInput : PortInput := ⟨false, false, 0#6, 0⟩

/-- The inputs sampled at the next edge. -/
def presented (s : State) : PortInput := s.hostInputs.headD idleInput

/-- The host moves on to the inputs of the edge after. -/
def consume (s : State) : State := { s with hostInputs := s.hostInputs.tail }

/-- What an edge is about (R42). -/
inductive EdgeEvent where
  /-- `rst = 1`: the command inputs are ignored. -/
  | reset
  /-- `rst = 0`, `cmd_valid = 0`. -/
  | idle
  /-- A command to execute. -/
  | command (i : Instr)
  /-- A command whose time operand the port cannot carry. -/
  | illFormed
  deriving DecidableEq, Repr

/-- R42, with the decoder of R44. -/
def edgeEvent (c : Config) (p : PortInput) : EdgeEvent :=
  if p.rst then .reset
  else if p.cmdValid then
    if (decode p.cmd p.now).wellFormed c.tw then .command (decode p.cmd p.now) else .illFormed
  else .idle

/-- The host presents this number as the next command word, with 0 on `now`; a number of more than
six bits is no command word and is not presented (R34, R42; log entry 3). -/
def presentWord (w : Nat) (s : State) : State :=
  if w < 64 then { s with hostInputs := ⟨false, true, BitVec.ofNat 6 w, 0⟩ :: s.hostInputs } else s

/-- `rsp_valid` (R42). -/
def rspValid (s : State) : Bool := s.response.isSome

/-- `rsp_status`, 0 when `rsp_valid = 0` (R42). -/
def rspStatus (s : State) : BitVec 2 :=
  match s.response with
  | some r => statusCode r.status
  | none => 0#2

/-- `rsp_data` on `DW` bits in two's complement, 0 when `rsp_valid = 0` (R41, R42). -/
def rspData (s : State) : BitVec (dataWidth s.cfg) :=
  match s.response with
  | some r => BitVec.ofInt (dataWidth s.cfg) r.data
  | none => 0

/-- `coil_we`: 1 in the cycle after a command that performed `CoilDrive` (R42). -/
def coilWe (s : State) : Bool := !s.coilWrites.isEmpty

/-- The level of one coil line (R14, R25). -/
def coilLine (s : State) (line : Fin 4) : Bool := s.coil.getLsbD line.val

end Sys2Proof.Machine
end

