-- ==== Sys2Proof/Machine/Step.lean ====
section
/-! DEFINITION. One step of the machine is one rising edge of `clk` (R42). -/

namespace Sys2Proof.Machine

/-- One rising edge. A configuration that is not well formed has no instance, so no edge of it has a
meaning (R7, R64, U1). -/
def step (s : State) : Host.Outcome State Fault Refusal :=
  if configOK s.cfg then
    match edgeEvent s.cfg (presented s) with
    | .reset => .next (applyReset (consume s))
    | .idle => .next (idleEdge (consume s))
    | .command i => exec i (consume s)
    | .illFormed => .refused .nowOutOfRange
  else .refused .configurationError

/-- `s` with the word `w` presented by the host at the very next edge, before whatever it would have
presented there; `now` is 0 beside it (log entry 3). -/
def State.withFetchWord (s : State) (nbits w : Nat) : State := presentWord (w % 2 ^ nbits) s

end Sys2Proof.Machine
end

