-- ==== Sys2Proof/Machine/Assembler.lean ====
section
/-! DEFINITION. The assembler text of R43: its lines, what the host presents for each, and how a program
is loaded. -/

namespace Sys2Proof.Machine

/-- One line of a program (R43). -/
inductive AsmLine where
  /-- A command in its canonical word. -/
  | step (d : Dir) (y : StyleOperand)
  | release
  | init
  | run (t : Nat)
  | getpos
  | isclosed
  /-- `.cmd 0xNN`: a raw word. -/
  | cmd (w : CmdWord)
  deriving DecidableEq, Repr

/-- The word of a line, as the table of R43 lists it. -/
def asmWord : AsmLine → CmdWord
  | .step .forward (.known .single) => 0x08#6
  | .step .forward (.known .double) => 0x09#6
  | .step .forward (.known .interleave) => 0x0A#6
  | .step .forward .unrecognised => 0x0B#6
  | .step .backward (.known .single) => 0x0C#6
  | .step .backward (.known .double) => 0x0D#6
  | .step .backward (.known .interleave) => 0x0E#6
  | .step .backward .unrecognised => 0x0F#6
  | .release => 0x10#6
  | .init => 0x18#6
  | .run _ => 0x20#6
  | .getpos => 0x28#6
  | .isclosed => 0x30#6
  | .cmd w => w

/-- The value on `now` beside a line: RUN's `t` (R43). Beside a line whose word is no RUN the value is
ignored (R40), and 0 is presented (log entry 10). DESIGN CHOICE (log entry 17): beside a `.cmd` line whose
raw word is a RUN, 20 to 27, the value is read, R43's syntax names none, and the model presents 0. -/
def asmNow : AsmLine → Nat
  | .run t => t
  | .step _ _ => 0
  | .release => 0
  | .init => 0
  | .getpos => 0
  | .isclosed => 0
  | .cmd _ => 0

/-- What the host presents for a line: the command, with `cmd_valid = 1` (R42). -/
def assemble (l : AsmLine) : PortInput := ⟨false, true, asmWord l, asmNow l⟩

/-- A program is a finite list of commands that the host issues in order (R43): loading it is the host
presenting them at the coming edges (log entry 3). -/
def loadProgram (prog : List AsmLine) (s : State) : State :=
  { s with hostInputs := prog.map assemble }

/-- A hexadecimal digit. -/
def hexDigit (n : Nat) : String :=
  (["0", "1", "2", "3", "4", "5", "6", "7", "8", "9", "A", "B", "C", "D", "E", "F"][n]?).getD "?"

/-- The spelling of a direction (R43). -/
def dirText : Dir → String
  | .forward => "FWD"
  | .backward => "BWD"

/-- The spelling of a style operand (R43). -/
def styleText : StyleOperand → String
  | .known .single => "SINGLE"
  | .known .double => "DOUBLE"
  | .known .interleave => "INTERLEAVE"
  | .unrecognised => "STYLE3"

/-- The text of a line (R43). -/
def asmText : AsmLine → String
  | .step d y => "STEP " ++ dirText d ++ ", " ++ styleText y
  | .release => "RELEASE"
  | .init => "INIT"
  | .run t => "RUN @" ++ toString t
  | .getpos => "GETPOS"
  | .isclosed => "ISCLOSED"
  | .cmd w => ".cmd 0x" ++ hexDigit (w.toNat / 16) ++ hexDigit (w.toNat % 16)

end Sys2Proof.Machine
end

