-- ==== Sys2Proof/Safety.lean ====
section
/-! DEFINITION. The terms claims use: the invariant of the machine, sequences of commands, and what is
reachable from reset. -/

namespace Sys2Proof.Machine

/-- What holds of every state a run reaches (R6, R18, R21). -/
structure Inv (s : State) : Prop where
  /-- The configuration is well formed (R7). -/
  config : configOK s.cfg = true
  /-- R6. -/
  counterRange : fitsSigned s.cfg.cw s.counter
  /-- Before the first step nothing has moved (R11 to R13). -/
  beforeFirstStep : s.active = none → s.counter = 0 ∧ s.pattern = 0#4
  /-- After a step the pattern is the active table's entry at the counter (R45). -/
  afterStep : ∀ y, s.active = some y → entryAt s.cfg y s.counter = some s.pattern
  /-- R21. -/
  coilLevels : s.coil = 0#4 ∨ s.coil = s.pattern
  /-- R21. -/
  positionBound : ∀ p, s.position = some p → 0 ≤ p ∧ p ≤ homePosition s.cfg
  /-- R21. -/
  target : s.targetPosition = 0 ∧ s.targetDir = .closing ∧ s.targetLevel = 0
  /-- R6. -/
  timeRange : fitsUnsigned s.cfg.tw s.nextStepTime
  /-- The response data fits the response port (R41). -/
  responseRange : ∀ r, s.response = some r → fitsSigned (dataWidth s.cfg) r.data
  /-- The output writes of an edge are none or those of one drive of the present levels (R27). -/
  writes : s.coilWrites = [] ∨ s.coilWrites = driveWrites s.coil

/-- Commands issued one after another, each in the state its predecessor left (R30). -/
def execAll : List Instr → State → Host.Outcome State Fault Refusal
  | [], s => .next s
  | i :: is, s =>
    match exec i s with
    | .next t => execAll is t
    | .fault r => .fault r
    | .refused r => .refused r

/-- How many of the RUN commands at these times emit a step, as `coil_we` shows it (R42, R53). -/
def stepsEmitted : List Nat → State → Nat
  | [], _ => 0
  | now :: ts, s =>
    match exec (.run now) s with
    | .next t => (if coilWe t then 1 else 0) + stepsEmitted ts t
    | .fault _ => 0
    | .refused _ => 0

/-- A state that some well-formed instance reaches from reset under some stream of host inputs. -/
def Reachable (s : State) : Prop :=
  ∃ (c : Config) (ins : List PortInput) (k : Nat), configOK c = true ∧
    Sys2Proof.core.run k { State.atReset c with hostInputs := ins } = .next s

end Sys2Proof.Machine
end

