-- ==== Sys2Proof/Certificates/Slice0/Obligations.lean ====
section
/-! DEFINITION. The statements for the provers, in the order of spec/: encoding, ports and reset, the
commands, errors and frames, the laws of the source, and the invariant. -/

open Sys2Proof Sys2Proof.Machine

/-! ### Encoding -/

/-- R34 to R39: the fields of a word, read off its number, and the command they make. R44, which the spec
marks as derived from those rules, gives the same function. -/
def Obligations.DecodeIsTheSpecsDecodeFunction : Prop :=
  ∀ (w : CmdWord) (now : Nat),
    (w.toNat / 8 = 0 → decode w now = .reserved0) ∧
    (w.toNat / 8 = 1 →
      decode w now = .step (if w.toNat / 4 % 2 = 0 then .forward else .backward)
        (if w.toNat % 4 = 0 then .known .single
         else if w.toNat % 4 = 1 then .known .double
         else if w.toNat % 4 = 2 then .known .interleave
         else .unrecognised)) ∧
    (w.toNat / 8 = 2 → decode w now = .release) ∧
    (w.toNat / 8 = 3 → decode w now = .init) ∧
    (w.toNat / 8 = 4 → decode w now = .run now) ∧
    (w.toNat / 8 = 5 → decode w now = .getpos) ∧
    (w.toNat / 8 = 6 → decode w now = .isclosed) ∧
    (w.toNat / 8 = 7 → decode w now = .reserved7)

/-- R38: outside STEP the three low bits do not change what the command is, and the encoder writes them
zero. That the encoder does so for the two reserved groups too, whose words R43 does not list, is the
model's choice, log entry 10. -/
def Obligations.LowBitsAreIgnoredOutsideStep : Prop :=
  (∀ (w v : CmdWord) (now : Nat), w.toNat / 8 ≠ 1 → v.toNat / 8 = w.toNat / 8 →
    decode v now = decode w now) ∧
  (∀ i : Instr, (∀ d y, i ≠ .step d y) → (encode i).toNat % 8 = 0)

/-- R34 to R37, R40: no operand of any command is lost on its way through the word and `now`. -/
def Obligations.DecodeOfEncodeIsTheCommand : Prop :=
  ∀ i : Instr, decode (encode i) (timeOperand i) = i

/-- R34, R35, R38, R43: encoding what a word decodes to gives the word back, but for the ignored bits,
which become zero; and RUN's time is kept. The words 00 and 38 of the reserved groups, and the time 0 beside
every command but RUN, are the model's choice, log entry 10; the spec only says that the bits and the time
are ignored there (R38 to R40). -/
def Obligations.EncodeOfDecodeIsTheCanonicalWord : Prop :=
  ∀ (w : CmdWord) (now : Nat),
    (encode (decode w now)).toNat = (if w.toNat / 8 = 1 then w.toNat else w.toNat / 8 * 8) ∧
    timeOperand (decode w now) = (if w.toNat / 8 = 4 then now else 0)

/-- The words of 95_test_vectors.md 2.3. -/
def Obligations.ListedWordsDecodeAsListed : Prop :=
  ∀ now : Nat,
    decode 0x00#6 now = .reserved0 ∧ decode 0x07#6 now = .reserved0 ∧
    decode 0x08#6 now = .step .forward (.known .single) ∧
    decode 0x0B#6 now = .step .forward .unrecognised ∧
    decode 0x0C#6 now = .step .backward (.known .single) ∧
    decode 0x0E#6 now = .step .backward (.known .interleave) ∧
    decode 0x10#6 now = .release ∧ decode 0x17#6 now = .release ∧
    decode 0x18#6 now = .init ∧ decode 0x1C#6 now = .init ∧
    decode 0x20#6 now = .run now ∧ decode 0x27#6 now = .run now ∧
    decode 0x28#6 now = .getpos ∧ decode 0x2D#6 now = .getpos ∧
    decode 0x30#6 now = .isclosed ∧ decode 0x37#6 now = .isclosed ∧
    decode 0x38#6 now = .reserved7 ∧ decode 0x3F#6 now = .reserved7

/-- R43: each assembler line has the word the table of R43 lists, presents that word with its time, and so
presents the command it names. The time beside a `.cmd` line, which R43 does not name, is the model's choice,
log entry 17; the time beside the other lines that are no RUN is log entry 10's. -/
def Obligations.AssembledLineIsTheNamedCommand : Prop :=
  (∀ d y, decode (asmWord (.step d y)) (asmNow (.step d y)) = .step d y) ∧
  decode (asmWord .release) (asmNow .release) = .release ∧
  decode (asmWord .init) (asmNow .init) = .init ∧
  (∀ t, decode (asmWord (.run t)) (asmNow (.run t)) = .run t) ∧
  decode (asmWord .getpos) (asmNow .getpos) = .getpos ∧
  decode (asmWord .isclosed) (asmNow .isclosed) = .isclosed ∧
  (∀ w : CmdWord, asmWord (.cmd w) = w) ∧
  asmWord (.step .forward (.known .single)) = 0x08#6 ∧
  asmWord (.step .forward (.known .double)) = 0x09#6 ∧
  asmWord (.step .forward (.known .interleave)) = 0x0A#6 ∧
  asmWord (.step .forward .unrecognised) = 0x0B#6 ∧
  asmWord (.step .backward (.known .single)) = 0x0C#6 ∧
  asmWord (.step .backward (.known .double)) = 0x0D#6 ∧
  asmWord (.step .backward (.known .interleave)) = 0x0E#6 ∧
  asmWord (.step .backward .unrecognised) = 0x0F#6 ∧
  asmWord .release = 0x10#6 ∧ asmWord .init = 0x18#6 ∧ (∀ t, asmWord (.run t) = 0x20#6) ∧
  asmWord .getpos = 0x28#6 ∧ asmWord .isclosed = 0x30#6 ∧ (∀ t, asmNow (.run t) = t) ∧
  (∀ w : CmdWord, asmNow (.cmd w) = 0) ∧
  ∀ l, (assemble l).cmd = asmWord l ∧ (assemble l).now = asmNow l ∧
    (assemble l).rst = false ∧ (assemble l).cmdValid = true

/-! ### Notation, configuration, tables -/

/-- R8: `fmod` is the floored modulo. -/
def Obligations.FmodIsTheFlooredModulo : Prop :=
  ∀ (a : Int) (L : Nat), 0 < L →
    fmod a L < L ∧ (L : Int) ∣ a - fmod a L ∧
    ∀ r : Nat, r < L → (L : Int) ∣ a - r → r = fmod a L

/-- R7: `ConfigOK` is the list of its conditions, and without it no edge has a meaning. That the model
refuses such an edge is the treatment of U1 (log entry 7). -/
def Obligations.ConfigOKIsItsConditions : Prop :=
  (∀ c : Config, configOK c = true ↔
    1 ≤ c.tSingle.length ∧ 1 ≤ c.tDouble.length ∧ 1 ≤ c.tInterleave.length ∧
    1 ≤ c.maxPulses ∧ 0 ≤ c.overdrive ∧
    1 ≤ c.speeds.length ∧ (∀ d ∈ c.speeds, 1 ≤ d ∧ d ≤ 2 ^ c.tw - 1) ∧
    2 ≤ c.cw ∧ 2 ≤ c.pw ∧ 1 ≤ c.tw ∧
    c.maxPulses + c.overdrive ≤ (2 : Int) ^ (c.pw - 1) - 1) ∧
  ∀ s : State, configOK s.cfg = false → step s = .refused .configurationError

/-- R24 (its last claim the spec marks as derived from R21 and R7): a pattern read at `fmod(counter, len(T))` and a speed read at level 0 are never out of range,
and give what is configured. -/
def Obligations.TableReadsAreNeverOutOfRange : Prop :=
  ∀ c : Config, configOK c = true →
    (∀ n : Int, ∃ p, c.tSingle[(n % c.tSingle.length).toNat]? = some p ∧ entryAt c .single n = some p) ∧
    (∀ n : Int, ∃ p, c.tDouble[(n % c.tDouble.length).toNat]? = some p ∧ entryAt c .double n = some p) ∧
    (∀ n : Int, ∃ p, c.tInterleave[(n % c.tInterleave.length).toNat]? = some p ∧
      entryAt c .interleave n = some p) ∧
    ∃ d, c.speeds[0]? = some d ∧ speedRead c 0 = some d

/-- R25, R27: a drive makes exactly four writes, line `i` gets bit `i`, and `coil` is the pattern. -/
def Obligations.CoilDriveWritesEveryLineOnce : Prop :=
  ∀ (p : Pattern) (s : State),
    (coilDrive p s).coil = p ∧
    (coilDrive p s).coilWrites.length = 4 ∧
    (∀ i : Fin 4, (coilDrive p s).coilWrites[i.val]? = some ⟨i, p.getLsbD i.val⟩) ∧
    (∀ i : Fin 4, coilLine (coilDrive p s) i = p.getLsbD i.val) ∧
    p.toNat = (p.getLsbD 0).toNat + 2 * (p.getLsbD 1).toNat + 4 * (p.getLsbD 2).toNat +
      8 * (p.getLsbD 3).toNat

/-! ### Ports and reset -/

/-- R42, R44: an edge with `rst = 0` and `cmd_valid = 1` executes the command in `cmd` with the `now` of
that edge, in the state whose next inputs are those of the edge after. -/
def Obligations.EdgeExecutesThePresentedCommand : Prop :=
  ∀ (s : State) (w : CmdWord) (now : Nat) (rest : List PortInput),
    configOK s.cfg = true → s.hostInputs = ⟨false, true, w, now⟩ :: rest →
    (decode w now).wellFormed s.cfg.tw = true →
    step s = exec (decode w now) { s with hostInputs := rest }

/-- R42: an edge with `rst = 0` and `cmd_valid = 0` changes no state element, and the response outputs and
`coil_we` are 0 after it. That an edge past the end of the host's inputs is such an edge is the model's
choice, log entry 3. -/
def Obligations.EdgeWithoutCommandChangesNoState : Prop :=
  ∀ s : State, configOK s.cfg = true →
    (s.hostInputs = [] ∨ ∃ w now rest, s.hostInputs = ⟨false, false, w, now⟩ :: rest) →
    step s = .next { s with response := none, coilWrites := [], hostInputs := s.hostInputs.tail } ∧
    (∀ t, step s = .next t →
      rspValid t = false ∧ rspStatus t = 0#2 ∧ rspData t = 0 ∧ coilWe t = false)

/-- R75, R76: an edge with `rst = 1` gives the reset state whatever the command inputs are, with no
write event. The values of the target and the pacing clock, and the coil lines at reset without a write
event, are the spec's decision D20. -/
def Obligations.ResetEdgeGivesTheResetState : Prop :=
  ∀ (s : State) (v : Bool) (w : CmdWord) (now : Nat) (rest : List PortInput),
    configOK s.cfg = true → s.hostInputs = ⟨true, v, w, now⟩ :: rest →
    ∃ t, step s = .next t ∧
      t.counter = 0 ∧ t.active = none ∧ t.pattern = 0#4 ∧ t.coil = 0#4 ∧ t.position = none ∧
      t.targetPosition = 0 ∧ t.targetDir = .closing ∧ t.targetLevel = 0 ∧ t.nextStepTime = 0 ∧
      phase t = .uninitialized ∧ t.cfg = s.cfg ∧ t.coilWrites = [] ∧
      rspValid t = false ∧ rspStatus t = 0#2 ∧ rspData t = 0 ∧ coilWe t = false ∧
      t.hostInputs = rest

/-- R75: the same values in the reset state of an instance. That the host's machine starts as the
instance `Config.standard` is the model's choice, log entry 2. -/
def Obligations.ResetStateHasTheListedValues : Prop :=
  ∀ c : Config,
    (State.atReset c).counter = 0 ∧ (State.atReset c).active = none ∧
    (State.atReset c).pattern = 0#4 ∧ (State.atReset c).coil = 0#4 ∧
    (State.atReset c).position = none ∧ (State.atReset c).targetPosition = 0 ∧
    (State.atReset c).targetDir = .closing ∧ (State.atReset c).targetLevel = 0 ∧
    (State.atReset c).nextStepTime = 0 ∧ (State.atReset c).cfg = c ∧
    State.reset = State.atReset Config.standard

/-- R42: the word the host places for the next edge is decoded and executed by that edge. How it is
placed, with 0 on `now`, is the model's choice, log entry 3. -/
def Obligations.PlacedWordIsExecutedNext : Prop :=
  ∀ (s : State) (w : Nat), configOK s.cfg = true → w < 64 →
    ∃ i, decodeTableWord 8 w = some i ∧ step (s.withFetchWord 8 w) = exec i s

/-- A RUN presented with a time that `TW` bits cannot hold is refused: the model's choice, log entry 8. -/
def Obligations.TimeOutsideThePortIsRefused : Prop :=
  ∀ (s : State) (w : CmdWord) (now : Nat) (rest : List PortInput),
    configOK s.cfg = true → s.hostInputs = ⟨false, true, w, now⟩ :: rest →
    w.toNat / 8 = 4 → 2 ^ s.cfg.tw ≤ now →
    step s = .refused .nowOutOfRange

/-- R42: what the response outputs show, by the codes of R41. -/
def Obligations.ResponsePortsShowTheResponse : Prop :=
  ∀ (s : State) (d : Int),
    (s.response = some ⟨.ok, d⟩ → rspValid s = true ∧ rspStatus s = 0#2) ∧
    (s.response = some ⟨.invalidArgument, d⟩ → rspValid s = true ∧ rspStatus s = 1#2) ∧
    (s.response = some ⟨.unknownPosition, d⟩ → rspValid s = true ∧ rspStatus s = 2#2) ∧
    (s.response = some ⟨.illegalCommand, d⟩ → rspValid s = true ∧ rspStatus s = 3#2) ∧
    (s.response = none → rspValid s = false ∧ rspStatus s = 0#2 ∧ rspData s = 0)

/-- R8, R41: in a state a run can be in, the data bits read back as the data value. -/
def Obligations.ResponseDataReadsBackFromItsBits : Prop :=
  ∀ (s : State) (r : Response), Inv s → s.response = some r → (rspData s).toInt = r.data

/-- R41, R54, D10: the data of GETPOS while unknown is no legal position, on the port bits either. -/
def Obligations.UnknownDataIsNoLegalPosition : Prop :=
  ∀ (c : Config) (p : Int), configOK c = true → 0 ≤ p → p ≤ homePosition c →
    unknownData c ≠ p ∧ unknownData c ≠ 0 ∧
    BitVec.ofInt (dataWidth c) (unknownData c) ≠ BitVec.ofInt (dataWidth c) p

/-! ### The commands -/

/-- R46 with SeqStep of R45: STEP by its words, its error, its success and its refusal. -/
def Obligations.StepCommandAdvancesOneEntry : Prop :=
  (∀ (w : CmdWord) (now : Nat), w.toNat / 8 = 1 →
    decode w now = .step (if w.toNat / 4 % 2 = 0 then .forward else .backward)
      (if w.toNat % 4 = 0 then .known .single
       else if w.toNat % 4 = 1 then .known .double
       else if w.toNat % 4 = 2 then .known .interleave
       else .unrecognised)) ∧
  (∀ (d : Dir) (s : State),
    exec (.step d .unrecognised) s =
      .next { s with response := some ⟨.invalidArgument, 0⟩, coilWrites := [] }) ∧
  ∀ (d : Dir) (y : Style) (s : State) (n : Int), configOK s.cfg = true →
    n = s.counter + (if d = .forward then 1 else -1) →
    (fitsSigned s.cfg.cw n → ∃ p,
      (table s.cfg y)[fmod n (table s.cfg y).length]? = some p ∧
      exec (.step d (.known y)) s =
        .next { s with
          counter := n, active := some y, pattern := p, coil := p,
          coilWrites := driveWrites p, response := some ⟨.ok, n⟩ }) ∧
    (¬ fitsSigned s.cfg.cw n → exec (.step d (.known y)) s = .refused .counterOutOfRange)

/-- R47. -/
def Obligations.ReleaseDeenergisesAllCoils : Prop :=
  (∀ (w : CmdWord) (now : Nat), w.toNat / 8 = 2 → decode w now = .release) ∧
  ∀ s : State,
    exec .release s =
      .next { s with
        coil := 0#4
        coilWrites := [⟨0, false⟩, ⟨1, false⟩, ⟨2, false⟩, ⟨3, false⟩]
        response := some ⟨.ok, 0⟩ }

/-- R52. -/
def Obligations.InitDeclaresTheWorstCasePosition : Prop :=
  (∀ (w : CmdWord) (now : Nat), w.toNat / 8 = 3 → decode w now = .init) ∧
  ∀ s : State,
    exec .init s =
      .next { s with
        targetPosition := 0
        targetDir := .closing
        targetLevel := 0
        position := some (s.cfg.maxPulses + s.cfg.overdrive)
        nextStepTime := 0
        coilWrites := []
        response := some ⟨.ok, 0⟩ }

/-- R53. The premise that the new position fits `PW` bits is R6's; log entry 5 says what the model does
without it. -/
def Obligations.RunEmitsAtMostOneStep : Prop :=
  (∀ (w : CmdWord) (now : Nat), w.toNat / 8 = 4 → decode w now = .run now) ∧
  (∀ (s : State) (now : Nat), s.position = none →
    exec (.run now) s = .next { s with response := some ⟨.unknownPosition, 0⟩, coilWrites := [] }) ∧
  (∀ (s : State) (now : Nat) (p : Int), s.position = some p →
    p = s.targetPosition ∨ now < s.nextStepTime →
    exec (.run now) s = .next { s with response := some ⟨.ok, 0⟩, coilWrites := [] }) ∧
  ∀ (s : State) (now : Nat) (p : Int) (d : Nat) (δ : Int), configOK s.cfg = true →
    s.position = some p → p ≠ s.targetPosition → s.nextStepTime ≤ now →
    s.cfg.speeds[s.targetLevel]? = some d →
    δ = (if s.targetDir = .closing then -1 else 1) →
    (2 ^ s.cfg.tw - 1 < now + d → exec (.run now) s = .refused .timeOutOfRange) ∧
    (now + d ≤ 2 ^ s.cfg.tw - 1 → ¬ fitsSigned s.cfg.cw (s.counter + δ) →
      exec (.run now) s = .refused .counterOutOfRange) ∧
    (now + d ≤ 2 ^ s.cfg.tw - 1 → fitsSigned s.cfg.cw (s.counter + δ) → fitsSigned s.cfg.pw (p + δ) →
      ∃ e, entryAt s.cfg s.cfg.eevStyle (s.counter + δ) = some e ∧
        exec (.run now) s =
          .next { s with
            counter := s.counter + δ, active := some s.cfg.eevStyle, pattern := e, coil := e,
            position := some (p + δ), nextStepTime := now + d,
            coilWrites := driveWrites e, response := some ⟨.ok, 0⟩ })

/-- A RUN whose new position would leave `PW` bits is refused: the model's reading of R6, log entry 5. -/
def Obligations.PositionLeavingItsRangeIsRefused : Prop :=
  ∀ (s : State) (now : Nat) (p : Int) (d : Nat) (δ : Int), configOK s.cfg = true →
    s.position = some p → p ≠ s.targetPosition → s.nextStepTime ≤ now →
    s.cfg.speeds[s.targetLevel]? = some d → now + d ≤ 2 ^ s.cfg.tw - 1 →
    δ = (if s.targetDir = .closing then -1 else 1) →
    fitsSigned s.cfg.cw (s.counter + δ) → ¬ fitsSigned s.cfg.pw (p + δ) →
    exec (.run now) s = .refused .positionOutOfRange

/-- A due RUN whose speed level is no index of `SPEEDS` is refused: the model's choice, log entry 6. -/
def Obligations.SpeedLevelOutsideTheTableIsRefused : Prop :=
  ∀ (s : State) (now : Nat) (p : Int), s.position = some p → p ≠ s.targetPosition →
    s.nextStepTime ≤ now → s.cfg.speeds.length ≤ s.targetLevel →
    exec (.run now) s = .refused .speedLevelOutOfRange

/-- R54. -/
def Obligations.GetposReportsThePosition : Prop :=
  (∀ (w : CmdWord) (now : Nat), w.toNat / 8 = 5 → decode w now = .getpos) ∧
  (∀ s : State, s.position = none →
    exec .getpos s =
      .next { s with
        response := some ⟨.unknownPosition, -(2 : Int) ^ (max s.cfg.cw s.cfg.pw - 1)⟩
        coilWrites := [] }) ∧
  ∀ (s : State) (p : Int), s.position = some p →
    exec .getpos s = .next { s with response := some ⟨.ok, p⟩, coilWrites := [] }

/-- R55. -/
def Obligations.IsclosedTestsPositionZero : Prop :=
  (∀ (w : CmdWord) (now : Nat), w.toNat / 8 = 6 → decode w now = .isclosed) ∧
  (∀ s : State, s.position = none →
    exec .isclosed s = .next { s with response := some ⟨.unknownPosition, 0⟩, coilWrites := [] }) ∧
  (∀ s : State, s.position = some 0 →
    exec .isclosed s = .next { s with response := some ⟨.ok, 1⟩, coilWrites := [] }) ∧
  ∀ (s : State) (p : Int), s.position = some p → p ≠ 0 →
    exec .isclosed s = .next { s with response := some ⟨.ok, 0⟩, coilWrites := [] }

/-- R63: both groups of reserved words, by their words and by their constructors. -/
def Obligations.ReservedWordsAreIllegalCommands : Prop :=
  (∀ (s : State) (w : CmdWord) (now : Nat), w.toNat / 8 = 0 ∨ w.toNat / 8 = 7 →
    exec (decode w now) s =
      .next { s with response := some ⟨.illegalCommand, 0⟩, coilWrites := [] }) ∧
  ∀ s : State,
    exec .reserved0 s = .next { s with response := some ⟨.illegalCommand, 0⟩, coilWrites := [] } ∧
    exec .reserved7 s = .next { s with response := some ⟨.illegalCommand, 0⟩, coilWrites := [] }

/-! ### Errors, refusals, frames -/

/-- R61: InvalidArgument belongs to STEP with an unrecognised style, to nothing else, and changes
nothing. -/
def Obligations.InvalidArgumentIsRaisedByUnrecognisedStyleAlone : Prop :=
  ∀ (i : Instr) (s : State),
    ((∃ t d, exec i s = .next t ∧ t.response = some ⟨.invalidArgument, d⟩) ↔
      ∃ dir, i = .step dir .unrecognised) ∧
    ∀ t d, exec i s = .next t → t.response = some ⟨.invalidArgument, d⟩ →
      t = { s with response := some ⟨.invalidArgument, 0⟩, coilWrites := [] }

/-- R62: who reports UnknownPosition, when, what it leaves, and that the unknown position lasts from
reset to the first INIT. -/
def Obligations.UnknownPositionIsReportedUntilTheFirstInit : Prop :=
  (∀ c, (State.atReset c).position = none) ∧
  ∀ (i : Instr) (s t : State), exec i s = .next t →
    ((∃ d, t.response = some ⟨.unknownPosition, d⟩) ↔
      s.position = none ∧ ((∃ now, i = .run now) ∨ i = .getpos ∨ i = .isclosed)) ∧
    (∀ d, t.response = some ⟨.unknownPosition, d⟩ →
      t = { s with response := some ⟨.unknownPosition, d⟩, coilWrites := [] }) ∧
    (t.position = none ↔ s.position = none ∧ i ≠ .init)

/-- R60, R68: a command that ends in an error changes no state element and performs no coil write. -/
def Obligations.ErrorsChangeNothing : Prop :=
  ∀ (i : Instr) (s t : State) (r : Response), exec i s = .next t → t.response = some r →
    r.status ≠ .ok → t = { s with response := some r, coilWrites := [] }

/-- R41, R42: every command that is not refused ends with exactly one response, and its coil writes are
none or the four of one drive of the levels it leaves. -/
def Obligations.EveryCommandAnswersAndDrivesAtMostOnce : Prop :=
  ∀ (i : Instr) (s t : State), exec i s = .next t →
    rspValid t = true ∧
    ((coilWe t = false ∧ t.coilWrites = [] ∧ t.coil = s.coil) ∨
      (coilWe t = true ∧ t.coilWrites = driveWrites t.coil))

/-- R6, R46, R53, R84: in a state a run can be in, only a STEP at the edge of the counter's range and a
RUN at the edge of the counter's or the time's range are refused. -/
def Obligations.OnlyRangesAreRefused : Prop :=
  ∀ (i : Instr) (s : State) (r : Refusal), Inv s → exec i s = .refused r →
    (r = .counterOutOfRange ∧ ((∃ d y, i = .step d (.known y)) ∨ ∃ now, i = .run now)) ∨
    (r = .timeOutOfRange ∧ ∃ now, i = .run now)

/-- R46, R47, R80: the sequencer's commands leave the controller, the configuration and the host's inputs
alone; RELEASE leaves the counter, the active table and the pattern too. -/
def Obligations.SequencerCommandsLeaveTheController : Prop :=
  ∀ (i : Instr) (s t : State), ((∃ d y, i = .step d y) ∨ i = .release) → exec i s = .next t →
    t.cfg = s.cfg ∧ t.position = s.position ∧ t.targetPosition = s.targetPosition ∧
    t.targetDir = s.targetDir ∧ t.targetLevel = s.targetLevel ∧ t.nextStepTime = s.nextStepTime ∧
    t.hostInputs = s.hostInputs ∧
    (i = .release → t.counter = s.counter ∧ t.active = s.active ∧ t.pattern = s.pattern)

/-- R52 to R55, R63: INIT leaves the sequencer alone; the queries, the reserved words and a RUN that
emits no step leave all nine elements; a RUN that emits one leaves the target. No table is written. -/
def Obligations.ControllerCommandsLeaveTheRest : Prop :=
  ∀ (i : Instr) (s t : State), exec i s = .next t →
    (i = .init →
      t.cfg = s.cfg ∧ t.counter = s.counter ∧ t.active = s.active ∧ t.pattern = s.pattern ∧
      t.coil = s.coil ∧ t.coilWrites = [] ∧ t.hostInputs = s.hostInputs) ∧
    (((∃ now, i = .run now) ∧ coilWe t = false) ∨ i = .getpos ∨ i = .isclosed ∨ i = .reserved0 ∨
        i = .reserved7 →
      t = { s with response := t.response, coilWrites := [] }) ∧
    ((∃ now, i = .run now) →
      t.cfg = s.cfg ∧ t.targetPosition = s.targetPosition ∧ t.targetDir = s.targetDir ∧
      t.targetLevel = s.targetLevel ∧ t.hostInputs = s.hostInputs)

/-- R11, R46, R53: the counter changes by exactly 1, and only in a STEP with a recognised style or a RUN that
drives the coils. -/
def Obligations.CounterMovesOnlyByEmittedSteps : Prop :=
  ∀ (i : Instr) (s t : State), exec i s = .next t →
    (t.counter ≠ s.counter ↔
      (∃ d y, i = .step d (.known y)) ∨ ((∃ now, i = .run now) ∧ coilWe t = true)) ∧
    (t.counter = s.counter ∨ t.counter = s.counter + 1 ∨ t.counter = s.counter - 1)

/-- R19, R22: the outputs of the last command are read by no later command. -/
def Obligations.ResponsesAreNotKept : Prop :=
  ∀ (i : Instr) (s : State) (r : Option Response) (ws : List CoilWrite),
    exec i { s with response := r, coilWrites := ws } = exec i s

/-- R12, R13, R14: `active`, `pattern` and `coil` influence no response, no output write and no other
element. -/
def Obligations.ActivePatternAndCoilAreNeverRead : Prop :=
  ∀ (i : Instr) (s t : State) (a : Option Style) (p q : Pattern), exec i s = .next t →
    ∃ u, exec i { s with active := a, pattern := p, coil := q } = .next u ∧
      u.response = t.response ∧ u.coilWrites = t.coilWrites ∧ u.cfg = t.cfg ∧ u.counter = t.counter ∧
      u.position = t.position ∧ u.targetPosition = t.targetPosition ∧ u.targetDir = t.targetDir ∧
      u.targetLevel = t.targetLevel ∧ u.nextStepTime = t.nextStepTime ∧ u.hostInputs = t.hostInputs

/-- R20, R33: no edge writes the configuration. That each edge, which samples its inputs once (R42), takes
exactly one element of the list `hostInputs` is the model's choice, log entry 3. -/
def Obligations.EveryEdgeKeepsTheConfiguration : Prop :=
  ∀ s t : State, step s = .next t → t.cfg = s.cfg ∧ t.hostInputs = s.hostInputs.tail

/-! ### Laws of the source -/

/-- R48. -/
def Obligations.SteppingWrapsAroundTheTable : Prop :=
  (∀ (s : State) (y : Style) (n : Nat), configOK s.cfg = true → s.counter = 0 → 1 ≤ n →
    (fitsSigned s.cfg.cw n →
      ∃ t, execAll (List.replicate n (.step .forward (.known y))) s = .next t ∧ t.counter = n ∧
        fmod n (table s.cfg y).length < (table s.cfg y).length ∧
        (table s.cfg y)[fmod n (table s.cfg y).length]? = some t.pattern ∧ t.coil = t.pattern) ∧
    (fitsSigned s.cfg.cw (-n) →
      ∃ t, execAll (List.replicate n (.step .backward (.known y))) s = .next t ∧ t.counter = -n ∧
        fmod (-n) (table s.cfg y).length < (table s.cfg y).length ∧
        (table s.cfg y)[fmod (-n) (table s.cfg y).length]? = some t.pattern ∧ t.coil = t.pattern)) ∧
  ∀ (c : Config) (d : Dir) (y : Style), ∃ t,
    execAll (List.replicate 0 (.step d (.known y))) (State.atReset c) = .next t ∧ t.pattern = 0#4

/-- R49. Its sentence on the last pattern, and on a start from reset, the spec marks as derived from
R45. -/
def Obligations.ForwardThenBackwardRestoresTheCounter : Prop :=
  ∀ (s : State) (y : Style) (k : Nat), configOK s.cfg = true → 1 ≤ k →
    fitsSigned s.cfg.cw s.counter → fitsSigned s.cfg.cw (s.counter + k) →
    ∃ t, execAll (List.replicate k (.step .forward (.known y)) ++
          List.replicate k (.step .backward (.known y))) s = .next t ∧
      t.counter = s.counter ∧
      (table s.cfg y)[fmod s.counter (table s.cfg y).length]? = some t.coil ∧
      ((table s.cfg y)[fmod s.counter (table s.cfg y).length]? = some s.coil ↔ t.coil = s.coil) ∧
      (s.counter = 0 → (table s.cfg y)[0]? = some t.coil)

/-- R50. -/
def Obligations.StyleSwitchKeepsTheCounter : Prop :=
  ∀ (s t u : State) (d e : Dir) (y z : Style),
    exec (.step d (.known y)) s = .next t → exec (.step e (.known z)) t = .next u →
    t.counter = s.counter + (if d = .forward then 1 else -1) ∧
    u.counter = t.counter + (if e = .forward then 1 else -1) ∧
    (table s.cfg z)[fmod u.counter (table s.cfg z).length]? = some u.pattern ∧ u.coil = u.pattern

/-- R51. -/
def Obligations.ReleaseIsIdempotentAndForgottenByTheNextStep : Prop :=
  ∀ (s : State) (n : Nat), 1 ≤ n →
    ∃ r, execAll (List.replicate n .release) s = .next r ∧
      r.coil = 0#4 ∧ r.counter = s.counter ∧
      ∀ (d : Dir) (y : Style), exec (.step d (.known y)) r = exec (.step d (.known y)) s

/-- R56. That the two changes are equal the spec marks as derived from R53 and R45. -/
def Obligations.ClosingIsBackwardOpeningIsForward : Prop :=
  ∀ (s t : State) (now : Nat), exec (.run now) s = .next t → coilWe t = true →
    ∃ p, s.position = some p ∧
      (s.targetDir = .closing → t.position = some (p - 1) ∧ t.counter = s.counter - 1 ∧
        ∃ u, exec (.step .backward (.known s.cfg.eevStyle)) s = .next u ∧ u.counter = t.counter ∧
          u.active = t.active ∧ u.pattern = t.pattern ∧ u.coil = t.coil ∧ u.coilWrites = t.coilWrites) ∧
      (s.targetDir = .opening → t.position = some (p + 1) ∧ t.counter = s.counter + 1 ∧
        ∃ u, exec (.step .forward (.known s.cfg.eevStyle)) s = .next u ∧ u.counter = t.counter ∧
          u.active = t.active ∧ u.pattern = t.pattern ∧ u.coil = t.coil ∧ u.coilWrites = t.coilWrites)

/-- R17, R52: INIT arms the pacing clock: the very next RUN emits a step whatever `now` is, where the
ranges of R6 allow it. -/
def Obligations.FirstRunAfterInitSteps : Prop :=
  ∀ (s : State) (now d : Nat), configOK s.cfg = true → s.cfg.speeds[0]? = some d →
    now + d ≤ 2 ^ s.cfg.tw - 1 → fitsSigned s.cfg.cw (s.counter - 1) →
    ∃ t u, exec .init s = .next t ∧ exec (.run now) t = .next u ∧ coilWe u = true ∧
      u.counter = s.counter - 1 ∧ u.position = some (s.cfg.maxPulses + s.cfg.overdrive - 1) ∧
      u.nextStepTime = now + d

/-- R58: while homing, after a step at `t1` a RUN at `t2` emits a step exactly when
`t2 >= t1 + SPEEDS[0]`, one step however late it is; a RUN in between waits. -/
def Obligations.PacingIsTheElapsedInterval : Prop :=
  ∀ (s s1 : State) (t1 d : Nat), Inv s → s.cfg.speeds[0]? = some d →
    exec (.run t1) s = .next s1 → coilWe s1 = true → phase s1 = .homing →
    ∀ t2 : Nat,
      (t2 < t1 + d → exec (.run t2) s1 = .next { s1 with response := some ⟨.ok, 0⟩, coilWrites := [] }) ∧
      (t1 + d ≤ t2 → t2 + d ≤ 2 ^ s.cfg.tw - 1 → fitsSigned s.cfg.cw (s1.counter - 1) →
        ∃ s2, exec (.run t2) s1 = .next s2 ∧ coilWe s2 = true ∧ s2.counter = s1.counter - 1 ∧
          s2.position = s1.position.map (fun p => p - 1) ∧ s2.nextStepTime = t2 + d) ∧
      (∀ s2, exec (.run t2) s1 = .next s2 → (coilWe s2 = true ↔ t1 + d ≤ t2))

/-- R57: after INIT, RUN commands at any times do to the sequencer what that many STEP BACKWARD commands
of the style `EEV_STYLE` do, never more than `MAX_PULSES + OVERDRIVE` of them; at position 0 every later
RUN is a no-op. -/
def Obligations.HomingIsClosingStepsOfTheSequencer : Prop :=
  ∀ (s s0 t : State) (ns : List Nat), configOK s.cfg = true → exec .init s = .next s0 →
    execAll (ns.map Instr.run) s0 = .next t →
    (stepsEmitted ns s0 : Int) ≤ s.cfg.maxPulses + s.cfg.overdrive ∧
    t.position = some (s.cfg.maxPulses + s.cfg.overdrive - stepsEmitted ns s0) ∧
    t.counter = s.counter - stepsEmitted ns s0 ∧
    (∃ u, execAll (List.replicate (stepsEmitted ns s0) (.step .backward (.known s.cfg.eevStyle))) s =
        .next u ∧
      u.counter = t.counter ∧ u.active = t.active ∧ u.pattern = t.pattern ∧ u.coil = t.coil) ∧
    (t.position = some 0 → ∀ now, exec (.run now) t =
      .next { t with response := some ⟨.ok, 0⟩, coilWrites := [] })

/-- R57: polled once per interval for `MAX_PULSES + OVERDRIVE` intervals, a homing emits exactly that many
steps and ends closed, at whatever position it was before. -/
def Obligations.PacedHomingEndsClosed : Prop :=
  ∀ (s s0 : State) (ns : List Nat) (d : Nat), configOK s.cfg = true → exec .init s = .next s0 →
    s.cfg.speeds[0]? = some d → ns.Pairwise (fun a b => a + d ≤ b) →
    (ns.length : Int) = s.cfg.maxPulses + s.cfg.overdrive →
    (∀ n ∈ ns, n + d ≤ 2 ^ s.cfg.tw - 1) →
    fitsSigned s.cfg.cw s.counter → fitsSigned s.cfg.cw (s.counter - ns.length) →
    ∃ t, execAll (ns.map Instr.run) s0 = .next t ∧
      stepsEmitted ns s0 = ns.length ∧ t.counter = s.counter - ns.length ∧ t.position = some 0 ∧
      phase t = .idleAtTarget ∧
      exec .getpos t = .next { t with response := some ⟨.ok, 0⟩, coilWrites := [] } ∧
      exec .isclosed t = .next { t with response := some ⟨.ok, 1⟩, coilWrites := [] }

/-- R81, which the spec marks as derived from R53 and R47: with tables that hold no all-zero entry, no command but RELEASE de-energises energised coils; and
a RUN at the target leaves the last pattern on the lines. -/
def Obligations.OnlyReleaseDeenergisesTheCoils : Prop :=
  (∀ (i : Instr) (s t : State),
    (∀ y n e, entryAt s.cfg y n = some e → e ≠ 0#4) → s.coil ≠ 0#4 → i ≠ .release →
    exec i s = .next t → t.coil ≠ 0#4) ∧
  ∀ (s : State) (now : Nat), phase s = .idleAtTarget →
    ∃ t, exec (.run now) s = .next t ∧ t.coil = s.coil ∧ coilWe t = false

/-- R18: the three phases and what leads from one to another. -/
def Obligations.PhasesFollowInitAndRun : Prop :=
  (∀ s : State,
    (phase s = .uninitialized ↔ s.position = none) ∧
    (phase s = .idleAtTarget ↔ s.position = some s.targetPosition) ∧
    (phase s = .homing ↔ s.position ≠ none ∧ s.position ≠ some s.targetPosition)) ∧
  (∀ c, phase (State.atReset c) = .uninitialized) ∧
  (∀ s : State, configOK s.cfg = true → ∃ t, exec .init s = .next t ∧ phase t = .homing) ∧
  (∀ (s t : State) (now : Nat), exec (.run now) s = .next t → t.position = some t.targetPosition →
    phase t = .idleAtTarget) ∧
  ∀ (i : Instr) (s t : State), exec i s = .next t → phase s ≠ .uninitialized →
    phase t ≠ .uninitialized

/-! ### Invariants -/

/-- The invariant holds at the reset state of every well-formed instance. -/
def Obligations.InvHoldsAtReset : Prop :=
  ∀ c : Config, configOK c = true → Inv (State.atReset c)

/-- Every edge keeps the invariant, in every state that has it. -/
def Obligations.EveryEdgeKeepsInv : Prop :=
  ∀ s t : State, Inv s → step s = .next t → Inv t

/-- R21, which the spec marks as derived from R52, R53 and the reset values: over every well-formed
instance and every stream of host inputs. -/
def Obligations.ReachableStatesAreBounded : Prop :=
  ∀ s : State, Reachable s →
    (∀ p, s.position = some p → 0 ≤ p ∧ p ≤ s.cfg.maxPulses + s.cfg.overdrive) ∧
    s.targetPosition = 0 ∧ s.targetDir = .closing ∧ s.targetLevel = 0 ∧
    (s.pattern = 0#4 ∨ s.pattern ∈ s.cfg.tSingle ∨ s.pattern ∈ s.cfg.tDouble ∨
      s.pattern ∈ s.cfg.tInterleave) ∧
    (s.coil = 0#4 ∨ s.coil = s.pattern)
end

