-- ==== Sys2Proof/Laws/Decode.lean ====
section
/-! SUPPORT. The fields of a command word as parts of its number, and the decoder by its `op` value. -/

namespace Sys2Proof

theorem opField_toNat (w : CmdWord) : (opField w).toNat = w.toNat / 8 := by
  revert w
  decide

theorem dirField_toNat (w : CmdWord) : (dirField w).toNat = w.toNat / 4 % 2 := by
  revert w
  decide

theorem styleField_toNat (w : CmdWord) : (styleField w).toNat = w.toNat % 4 := by
  revert w
  decide

/-- A word has one of the eight `op` values (R35). -/
theorem opField_of_toNat {w : CmdWord} {n : Nat} (h : w.toNat / 8 = n) : opField w = BitVec.ofNat 3 n := by
  rw [← h, ← opField_toNat, BitVec.ofNat_toNat, BitVec.setWidth_eq]

end Sys2Proof
end

