-- ==== Sys2Proof/Laws/Operands.lean ====
section
/-! SUPPORT. What the operand functions answer: the floored modulo, the tables of a well-formed
configuration, and what `ConfigOK` gives. -/

namespace Sys2Proof.Machine

theorem fitsSigned_iff {w : Nat} {v : Int} :
    fitsSigned w v = true ↔ -((2 ^ (w - 1) : Nat) : Int) ≤ v ∧ v ≤ ((2 ^ (w - 1) : Nat) : Int) - 1 :=
  decide_eq_true_iff

theorem fitsUnsigned_iff {w t : Nat} : fitsUnsigned w t = true ↔ t ≤ 2 ^ w - 1 := decide_eq_true_iff

/-- The index of a table read is in range (R8). -/
theorem fmod_lt (a : Int) {L : Nat} (h : 1 ≤ L) : fmod a L < L := by
  have h0 := Int.emod_nonneg a (show (L : Int) ≠ 0 by omega)
  have h1 := Int.emod_lt_of_pos a (show (0 : Int) < L by omega)
  unfold fmod
  omega

/-- As an integer, `fmod` is Lean's `%` by a positive length (R8). -/
theorem fmod_cast (a : Int) {L : Nat} (h : 1 ≤ L) : (fmod a L : Int) = a % L :=
  Int.toNat_of_nonneg (Int.emod_nonneg a (by omega))

theorem table_length_pos {c : Config} (h : configOK c = true) (y : Style) : 1 ≤ (table c y).length := by
  simp only [configOK, Bool.and_eq_true, decide_eq_true_eq] at h
  cases y <;> simp only [table] <;> omega

/-- A step of a well-formed instance always finds its pattern (R24). -/
theorem entryAt_some {c : Config} (h : configOK c = true) (y : Style) (n : Int) :
    ∃ p, entryAt c y n = some p :=
  ⟨_, List.getElem?_eq_getElem (fmod_lt n (table_length_pos h y))⟩

/-- The pattern of a step is an entry of the style's table (R45). -/
theorem mem_table_of_entryAt {c : Config} {y : Style} {n : Int} {p : Pattern}
    (h : entryAt c y n = some p) : p ∈ table c y :=
  List.mem_of_getElem? h

theorem speedRead_some {c : Config} (h : configOK c = true) : ∃ d, speedRead c 0 = some d := by
  simp only [configOK, Bool.and_eq_true, decide_eq_true_eq] at h
  exact ⟨_, List.getElem?_eq_getElem (show 0 < c.speeds.length by omega)⟩

/-- Every configured speed is at least one tick and fits the time width (R7). -/
theorem speed_bounds {c : Config} (h : configOK c = true) {k d : Nat} (hd : speedRead c k = some d) :
    1 ≤ d ∧ fitsUnsigned c.tw d := by
  rw [fitsUnsigned_iff]
  simp only [configOK, Bool.and_eq_true, List.all_eq_true, decide_eq_true_eq] at h
  exact h.1.1.1.1.2 d (List.mem_of_getElem? hd)

/-- The declared position is positive and fits the position width (R7). -/
theorem homePosition_bounds {c : Config} (h : configOK c = true) :
    1 ≤ homePosition c ∧ fitsSigned c.pw (homePosition c) := by
  simp only [configOK, Bool.and_eq_true, decide_eq_true_eq] at h
  have : (0 : Int) ≤ ((2 ^ (c.pw - 1) : Nat) : Int) := Int.natCast_nonneg _
  rw [fitsSigned_iff]
  unfold homePosition at *
  refine ⟨by omega, ?_, ?_⟩ <;> omega

theorem fitsSigned_mono {v w : Nat} (h : v ≤ w) {x : Int} (hx : fitsSigned v x) : fitsSigned w x := by
  have h2 : (2 ^ (v - 1) : Nat) ≤ 2 ^ (w - 1) := Nat.pow_le_pow_right (by decide) (by omega)
  rw [fitsSigned_iff] at hx ⊢
  omega

end Sys2Proof.Machine
end

