-- ==== Sys2Proof/Laws/State.lean ====
section
/-! SUPPORT. One lemma per field for each named update of the state. -/

namespace Sys2Proof.Machine

/-! `CoilDrive` (R27) writes `coil` and makes its four output writes. -/

@[simp] theorem coilDrive_cfg (p : Pattern) (s : State) : (coilDrive p s).cfg = s.cfg := rfl
@[simp] theorem coilDrive_counter (p : Pattern) (s : State) : (coilDrive p s).counter = s.counter := rfl
@[simp] theorem coilDrive_active (p : Pattern) (s : State) : (coilDrive p s).active = s.active := rfl
@[simp] theorem coilDrive_pattern (p : Pattern) (s : State) : (coilDrive p s).pattern = s.pattern := rfl
@[simp] theorem coilDrive_coil (p : Pattern) (s : State) : (coilDrive p s).coil = p := rfl
@[simp] theorem coilDrive_position (p : Pattern) (s : State) : (coilDrive p s).position = s.position := rfl
@[simp] theorem coilDrive_targetPosition (p : Pattern) (s : State) : (coilDrive p s).targetPosition = s.targetPosition := rfl
@[simp] theorem coilDrive_targetDir (p : Pattern) (s : State) : (coilDrive p s).targetDir = s.targetDir := rfl
@[simp] theorem coilDrive_targetLevel (p : Pattern) (s : State) : (coilDrive p s).targetLevel = s.targetLevel := rfl
@[simp] theorem coilDrive_nextStepTime (p : Pattern) (s : State) : (coilDrive p s).nextStepTime = s.nextStepTime := rfl
@[simp] theorem coilDrive_response (p : Pattern) (s : State) : (coilDrive p s).response = s.response := rfl
@[simp] theorem coilDrive_coilWrites (p : Pattern) (s : State) : (coilDrive p s).coilWrites = driveWrites p := rfl
@[simp] theorem coilDrive_hostInputs (p : Pattern) (s : State) : (coilDrive p s).hostInputs = s.hostInputs := rfl

/-! A command without `CoilDrive` makes no output write (R42). -/

@[simp] theorem noDrive_cfg (s : State) : (noDrive s).cfg = s.cfg := rfl
@[simp] theorem noDrive_counter (s : State) : (noDrive s).counter = s.counter := rfl
@[simp] theorem noDrive_active (s : State) : (noDrive s).active = s.active := rfl
@[simp] theorem noDrive_pattern (s : State) : (noDrive s).pattern = s.pattern := rfl
@[simp] theorem noDrive_coil (s : State) : (noDrive s).coil = s.coil := rfl
@[simp] theorem noDrive_position (s : State) : (noDrive s).position = s.position := rfl
@[simp] theorem noDrive_targetPosition (s : State) : (noDrive s).targetPosition = s.targetPosition := rfl
@[simp] theorem noDrive_targetDir (s : State) : (noDrive s).targetDir = s.targetDir := rfl
@[simp] theorem noDrive_targetLevel (s : State) : (noDrive s).targetLevel = s.targetLevel := rfl
@[simp] theorem noDrive_nextStepTime (s : State) : (noDrive s).nextStepTime = s.nextStepTime := rfl
@[simp] theorem noDrive_response (s : State) : (noDrive s).response = s.response := rfl
@[simp] theorem noDrive_coilWrites (s : State) : (noDrive s).coilWrites = [] := rfl
@[simp] theorem noDrive_hostInputs (s : State) : (noDrive s).hostInputs = s.hostInputs := rfl

/-! Responding writes the response port alone (R41). -/

@[simp] theorem setResponse_cfg (st : Status) (data : Int) (s : State) : (setResponse st data s).cfg = s.cfg := rfl
@[simp] theorem setResponse_counter (st : Status) (data : Int) (s : State) : (setResponse st data s).counter = s.counter := rfl
@[simp] theorem setResponse_active (st : Status) (data : Int) (s : State) : (setResponse st data s).active = s.active := rfl
@[simp] theorem setResponse_pattern (st : Status) (data : Int) (s : State) : (setResponse st data s).pattern = s.pattern := rfl
@[simp] theorem setResponse_coil (st : Status) (data : Int) (s : State) : (setResponse st data s).coil = s.coil := rfl
@[simp] theorem setResponse_position (st : Status) (data : Int) (s : State) : (setResponse st data s).position = s.position := rfl
@[simp] theorem setResponse_targetPosition (st : Status) (data : Int) (s : State) : (setResponse st data s).targetPosition = s.targetPosition := rfl
@[simp] theorem setResponse_targetDir (st : Status) (data : Int) (s : State) : (setResponse st data s).targetDir = s.targetDir := rfl
@[simp] theorem setResponse_targetLevel (st : Status) (data : Int) (s : State) : (setResponse st data s).targetLevel = s.targetLevel := rfl
@[simp] theorem setResponse_nextStepTime (st : Status) (data : Int) (s : State) : (setResponse st data s).nextStepTime = s.nextStepTime := rfl
@[simp] theorem setResponse_response (st : Status) (data : Int) (s : State) : (setResponse st data s).response = some ⟨st, data⟩ := rfl
@[simp] theorem setResponse_coilWrites (st : Status) (data : Int) (s : State) : (setResponse st data s).coilWrites = s.coilWrites := rfl
@[simp] theorem setResponse_hostInputs (st : Status) (data : Int) (s : State) : (setResponse st data s).hostInputs = s.hostInputs := rfl

/-! What `SeqStep` writes (R45). -/

@[simp] theorem writeStep_cfg (n : Int) (y : Style) (p : Pattern) (s : State) : (writeStep n y p s).cfg = s.cfg := rfl
@[simp] theorem writeStep_counter (n : Int) (y : Style) (p : Pattern) (s : State) : (writeStep n y p s).counter = n := rfl
@[simp] theorem writeStep_active (n : Int) (y : Style) (p : Pattern) (s : State) : (writeStep n y p s).active = some y := rfl
@[simp] theorem writeStep_pattern (n : Int) (y : Style) (p : Pattern) (s : State) : (writeStep n y p s).pattern = p := rfl
@[simp] theorem writeStep_coil (n : Int) (y : Style) (p : Pattern) (s : State) : (writeStep n y p s).coil = p := rfl
@[simp] theorem writeStep_position (n : Int) (y : Style) (p : Pattern) (s : State) : (writeStep n y p s).position = s.position := rfl
@[simp] theorem writeStep_targetPosition (n : Int) (y : Style) (p : Pattern) (s : State) : (writeStep n y p s).targetPosition = s.targetPosition := rfl
@[simp] theorem writeStep_targetDir (n : Int) (y : Style) (p : Pattern) (s : State) : (writeStep n y p s).targetDir = s.targetDir := rfl
@[simp] theorem writeStep_targetLevel (n : Int) (y : Style) (p : Pattern) (s : State) : (writeStep n y p s).targetLevel = s.targetLevel := rfl
@[simp] theorem writeStep_nextStepTime (n : Int) (y : Style) (p : Pattern) (s : State) : (writeStep n y p s).nextStepTime = s.nextStepTime := rfl
@[simp] theorem writeStep_response (n : Int) (y : Style) (p : Pattern) (s : State) : (writeStep n y p s).response = s.response := rfl
@[simp] theorem writeStep_coilWrites (n : Int) (y : Style) (p : Pattern) (s : State) : (writeStep n y p s).coilWrites = driveWrites p := rfl
@[simp] theorem writeStep_hostInputs (n : Int) (y : Style) (p : Pattern) (s : State) : (writeStep n y p s).hostInputs = s.hostInputs := rfl

/-! What INIT writes (R52). -/

@[simp] theorem armHoming_cfg (s : State) : (armHoming s).cfg = s.cfg := rfl
@[simp] theorem armHoming_counter (s : State) : (armHoming s).counter = s.counter := rfl
@[simp] theorem armHoming_active (s : State) : (armHoming s).active = s.active := rfl
@[simp] theorem armHoming_pattern (s : State) : (armHoming s).pattern = s.pattern := rfl
@[simp] theorem armHoming_coil (s : State) : (armHoming s).coil = s.coil := rfl
@[simp] theorem armHoming_position (s : State) : (armHoming s).position = some (homePosition s.cfg) := rfl
@[simp] theorem armHoming_targetPosition (s : State) : (armHoming s).targetPosition = 0 := rfl
@[simp] theorem armHoming_targetDir (s : State) : (armHoming s).targetDir = .closing := rfl
@[simp] theorem armHoming_targetLevel (s : State) : (armHoming s).targetLevel = 0 := rfl
@[simp] theorem armHoming_nextStepTime (s : State) : (armHoming s).nextStepTime = 0 := rfl
@[simp] theorem armHoming_response (s : State) : (armHoming s).response = s.response := rfl
@[simp] theorem armHoming_coilWrites (s : State) : (armHoming s).coilWrites = s.coilWrites := rfl
@[simp] theorem armHoming_hostInputs (s : State) : (armHoming s).hostInputs = s.hostInputs := rfl

/-! What a stepping RUN writes in the controller (R53). -/

@[simp] theorem recordEmission_cfg (p : Int) (t : Nat) (s : State) : (recordEmission p t s).cfg = s.cfg := rfl
@[simp] theorem recordEmission_counter (p : Int) (t : Nat) (s : State) : (recordEmission p t s).counter = s.counter := rfl
@[simp] theorem recordEmission_active (p : Int) (t : Nat) (s : State) : (recordEmission p t s).active = s.active := rfl
@[simp] theorem recordEmission_pattern (p : Int) (t : Nat) (s : State) : (recordEmission p t s).pattern = s.pattern := rfl
@[simp] theorem recordEmission_coil (p : Int) (t : Nat) (s : State) : (recordEmission p t s).coil = s.coil := rfl
@[simp] theorem recordEmission_position (p : Int) (t : Nat) (s : State) : (recordEmission p t s).position = some p := rfl
@[simp] theorem recordEmission_targetPosition (p : Int) (t : Nat) (s : State) : (recordEmission p t s).targetPosition = s.targetPosition := rfl
@[simp] theorem recordEmission_targetDir (p : Int) (t : Nat) (s : State) : (recordEmission p t s).targetDir = s.targetDir := rfl
@[simp] theorem recordEmission_targetLevel (p : Int) (t : Nat) (s : State) : (recordEmission p t s).targetLevel = s.targetLevel := rfl
@[simp] theorem recordEmission_nextStepTime (p : Int) (t : Nat) (s : State) : (recordEmission p t s).nextStepTime = t := rfl
@[simp] theorem recordEmission_response (p : Int) (t : Nat) (s : State) : (recordEmission p t s).response = s.response := rfl
@[simp] theorem recordEmission_coilWrites (p : Int) (t : Nat) (s : State) : (recordEmission p t s).coilWrites = s.coilWrites := rfl
@[simp] theorem recordEmission_hostInputs (p : Int) (t : Nat) (s : State) : (recordEmission p t s).hostInputs = s.hostInputs := rfl

/-! An edge without a command clears the outputs alone (R42). -/

@[simp] theorem idleEdge_cfg (s : State) : (idleEdge s).cfg = s.cfg := rfl
@[simp] theorem idleEdge_counter (s : State) : (idleEdge s).counter = s.counter := rfl
@[simp] theorem idleEdge_active (s : State) : (idleEdge s).active = s.active := rfl
@[simp] theorem idleEdge_pattern (s : State) : (idleEdge s).pattern = s.pattern := rfl
@[simp] theorem idleEdge_coil (s : State) : (idleEdge s).coil = s.coil := rfl
@[simp] theorem idleEdge_position (s : State) : (idleEdge s).position = s.position := rfl
@[simp] theorem idleEdge_targetPosition (s : State) : (idleEdge s).targetPosition = s.targetPosition := rfl
@[simp] theorem idleEdge_targetDir (s : State) : (idleEdge s).targetDir = s.targetDir := rfl
@[simp] theorem idleEdge_targetLevel (s : State) : (idleEdge s).targetLevel = s.targetLevel := rfl
@[simp] theorem idleEdge_nextStepTime (s : State) : (idleEdge s).nextStepTime = s.nextStepTime := rfl
@[simp] theorem idleEdge_response (s : State) : (idleEdge s).response = none := rfl
@[simp] theorem idleEdge_coilWrites (s : State) : (idleEdge s).coilWrites = [] := rfl
@[simp] theorem idleEdge_hostInputs (s : State) : (idleEdge s).hostInputs = s.hostInputs := rfl

/-! Reset writes every element and keeps the configuration (R75). -/

@[simp] theorem applyReset_cfg (s : State) : (applyReset s).cfg = s.cfg := rfl
@[simp] theorem applyReset_counter (s : State) : (applyReset s).counter = 0 := rfl
@[simp] theorem applyReset_active (s : State) : (applyReset s).active = none := rfl
@[simp] theorem applyReset_pattern (s : State) : (applyReset s).pattern = 0#4 := rfl
@[simp] theorem applyReset_coil (s : State) : (applyReset s).coil = 0#4 := rfl
@[simp] theorem applyReset_position (s : State) : (applyReset s).position = none := rfl
@[simp] theorem applyReset_targetPosition (s : State) : (applyReset s).targetPosition = 0 := rfl
@[simp] theorem applyReset_targetDir (s : State) : (applyReset s).targetDir = .closing := rfl
@[simp] theorem applyReset_targetLevel (s : State) : (applyReset s).targetLevel = 0 := rfl
@[simp] theorem applyReset_nextStepTime (s : State) : (applyReset s).nextStepTime = 0 := rfl
@[simp] theorem applyReset_response (s : State) : (applyReset s).response = none := rfl
@[simp] theorem applyReset_coilWrites (s : State) : (applyReset s).coilWrites = [] := rfl
@[simp] theorem applyReset_hostInputs (s : State) : (applyReset s).hostInputs = s.hostInputs := rfl

/-! Sampling an edge takes the next of the host's inputs. -/

@[simp] theorem consume_cfg (s : State) : (consume s).cfg = s.cfg := rfl
@[simp] theorem consume_counter (s : State) : (consume s).counter = s.counter := rfl
@[simp] theorem consume_active (s : State) : (consume s).active = s.active := rfl
@[simp] theorem consume_pattern (s : State) : (consume s).pattern = s.pattern := rfl
@[simp] theorem consume_coil (s : State) : (consume s).coil = s.coil := rfl
@[simp] theorem consume_position (s : State) : (consume s).position = s.position := rfl
@[simp] theorem consume_targetPosition (s : State) : (consume s).targetPosition = s.targetPosition := rfl
@[simp] theorem consume_targetDir (s : State) : (consume s).targetDir = s.targetDir := rfl
@[simp] theorem consume_targetLevel (s : State) : (consume s).targetLevel = s.targetLevel := rfl
@[simp] theorem consume_nextStepTime (s : State) : (consume s).nextStepTime = s.nextStepTime := rfl
@[simp] theorem consume_response (s : State) : (consume s).response = s.response := rfl
@[simp] theorem consume_coilWrites (s : State) : (consume s).coilWrites = s.coilWrites := rfl
@[simp] theorem consume_hostInputs (s : State) : (consume s).hostInputs = s.hostInputs.tail := rfl

end Sys2Proof.Machine
end

