-- ==== Sys2Proof/Laws/Ops.lean ====
section
/-! SUPPORT. For each shared operation, what it can answer, once. -/

namespace Sys2Proof.Machine

/-- Responding always completes (R9). -/
theorem respond_next {st : Status} {data : Int} {s t : State} :
    respond st data s = .next t ↔ t = setResponse st data s := by
  simp only [respond, Host.Outcome.next.injEq, eq_comm]

/-- An error always completes, with its response and nothing else (R60). -/
theorem raiseError_next {e : RunError} {data : Int} {s t : State} :
    raiseError e data s = .next t ↔ t = setResponse (errorStatus e) data (noDrive s) := by
  rw [raiseError, respond_next]

/-- When `SeqStep` succeeds, and with what (R45). -/
theorem seqStep_ok {d : Dir} {y : Style} {s t : State} :
    seqStep d y s = .ok t ↔
      fitsSigned s.cfg.cw (s.counter + stepDelta d) ∧
      ∃ p, entryAt s.cfg y (s.counter + stepDelta d) = some p ∧
        t = writeStep (s.counter + stepDelta d) y p s := by
  unfold seqStep
  by_cases h : fitsSigned s.cfg.cw (s.counter + stepDelta d)
  · rw [if_pos h, and_iff_right h]
    cases entryAt s.cfg y (s.counter + stepDelta d) <;>
      simp only [Except.ok.injEq, reduceCtorEq, Option.some.injEq, false_and, exists_false,
        exists_eq_left', eq_comm]
  · rw [if_neg h]
    exact ⟨nofun, fun h' => absurd h'.1 h⟩

/-- When `SeqStep` refuses in a well-formed instance (R45). -/
theorem seqStep_error {d : Dir} {y : Style} {s : State} {r : Refusal} (hc : configOK s.cfg = true) :
    seqStep d y s = .error r ↔
      ¬ fitsSigned s.cfg.cw (s.counter + stepDelta d) ∧ r = .counterOutOfRange := by
  unfold seqStep
  obtain ⟨p, hp⟩ := entryAt_some hc y (s.counter + stepDelta d)
  by_cases h : fitsSigned s.cfg.cw (s.counter + stepDelta d)
  · rw [if_pos h, hp]
    exact ⟨nofun, fun h' => absurd h h'.1⟩
  · rw [if_neg h, and_iff_right h, Except.error.injEq, eq_comm]

/-- When an emission of RUN completes, and with what (R53). -/
theorem emitStep_next {now : Nat} {p : Int} {s t : State} :
    emitStep now p s = .next t ↔
      ∃ d u, speedRead s.cfg s.targetLevel = some d ∧ fitsUnsigned s.cfg.tw (now + d) ∧
        seqStep (sequencerDir s.targetDir) s.cfg.eevStyle s = .ok u ∧
        fitsSigned s.cfg.pw (p + positionDelta s.targetDir) ∧
        t = setResponse .ok 0 (recordEmission (p + positionDelta s.targetDir) (now + d) u) := by
  unfold emitStep
  cases speedRead s.cfg s.targetLevel with
  | none => simp only [reduceCtorEq, false_and, exists_false]
  | some d =>
    by_cases ht : fitsUnsigned s.cfg.tw (now + d)
    · simp only [if_pos ht]
      cases seqStep (sequencerDir s.targetDir) s.cfg.eevStyle s with
      | error r =>
        simp only [reduceCtorEq, false_and, and_false, exists_false]
      | ok u =>
        by_cases hp : fitsSigned s.cfg.pw (p + positionDelta s.targetDir)
        · simp only [if_pos hp, respond_next]
          constructor
          · rintro rfl
            exact ⟨d, u, rfl, ht, rfl, hp, rfl⟩
          · rintro ⟨d', u', hd, -, hu, -, rfl⟩
            cases hd; cases hu; rfl
        · simp only [if_neg hp, reduceCtorEq, false_iff]
          rintro ⟨_, _, -, -, -, h, -⟩
          exact hp h
    · simp only [if_neg ht, reduceCtorEq, false_iff]
      rintro ⟨d', u', hd, h, -⟩
      cases hd
      exact ht h

/-- Why an emission of RUN is refused, in a well-formed instance (R6, R53). -/
theorem emitStep_refused {now : Nat} {p : Int} {s : State} {r : Refusal} (hc : configOK s.cfg = true)
    (h : emitStep now p s = .refused r) :
    (r = .speedLevelOutOfRange ∧ speedRead s.cfg s.targetLevel = none) ∨
    (∃ d, r = .timeOutOfRange ∧ speedRead s.cfg s.targetLevel = some d ∧
      ¬ fitsUnsigned s.cfg.tw (now + d)) ∨
    (r = .counterOutOfRange ∧
      ¬ fitsSigned s.cfg.cw (s.counter + stepDelta (sequencerDir s.targetDir))) ∨
    (r = .positionOutOfRange ∧ ¬ fitsSigned s.cfg.pw (p + positionDelta s.targetDir)) := by
  unfold emitStep at h
  split at h
  · rename_i hs
    cases h
    exact .inl ⟨rfl, hs⟩
  · rename_i d hs
    split at h
    · split at h
      · rename_i e he
        cases h
        obtain ⟨hr, rfl⟩ := (seqStep_error hc).mp he
        exact .inr (.inr (.inl ⟨rfl, hr⟩))
      · split at h
        · cases h
        · rename_i hp
          cases h
          exact .inr (.inr (.inr ⟨rfl, hp⟩))
    · rename_i ht
      cases h
      exact .inr (.inl ⟨d, rfl, hs, ht⟩)

/-- What STEP with a recognised style can answer next (R46). -/
theorem execStep_known_next {d : Dir} {y : Style} {s t : State} :
    execStep d (.known y) s = .next t ↔
      ∃ u, seqStep d y s = .ok u ∧ t = setResponse .ok u.counter u := by
  simp only [execStep]
  cases seqStep d y s with
  | error r => simp only [reduceCtorEq, false_and, exists_false]
  | ok u => simp only [respond_next, Except.ok.injEq, exists_eq_left']

/-- What RUN can answer next (R53): the error, one of the two no-ops, or an emission. -/
theorem execRun_next {now : Nat} {s t : State} :
    execRun now s = .next t ↔
      (s.position = none ∧ t = setResponse .unknownPosition 0 (noDrive s)) ∨
      ∃ p, s.position = some p ∧
        (((p = s.targetPosition ∨ now < s.nextStepTime) ∧ t = setResponse .ok 0 (noDrive s)) ∨
         (p ≠ s.targetPosition ∧ s.nextStepTime ≤ now ∧ emitStep now p s = .next t)) := by
  unfold execRun
  cases s.position with
  | none =>
    simp only [raiseError_next, errorStatus, true_and, reduceCtorEq, false_and, exists_false, or_false]
  | some p =>
    simp only [reduceCtorEq, false_and, false_or, Option.some.injEq, exists_eq_left']
    by_cases hp : p = s.targetPosition
    · simp only [hp, if_true, respond_next, true_or, true_and, ne_eq, not_true_eq_false, false_and,
        or_false]
    · by_cases hn : now < s.nextStepTime
      · simp only [hp, hn, if_false, if_true, respond_next, or_true, true_and, not_le.mpr hn, false_and,
          and_false, or_false]
      · simp only [hp, hn, if_false, or_self, false_and, false_or, ne_eq, not_false_eq_true, true_and,
          not_lt.mp hn]

end Sys2Proof.Machine
end

