-- ==== Sys2Proof/Laws/Exec.lean ====
section
/-! SUPPORT. What each command can answer next, once, as the five shapes a completed command has. -/

namespace Sys2Proof.Machine

/-- A command that answers without driving the coils or writing a state element: which status, when. -/
def answersOnly (i : Instr) (s : State) (st : Status) (data : Int) : Prop :=
  (st = .ok ∧
    ((∃ now p, i = .run now ∧ s.position = some p ∧ (p = s.targetPosition ∨ now < s.nextStepTime) ∧
        data = 0) ∨
      (i = .getpos ∧ s.position = some data) ∨
      (i = .isclosed ∧ ∃ p, s.position = some p ∧ data = closedData p))) ∨
  (st = .invalidArgument ∧ data = 0 ∧ ∃ d, i = .step d .unrecognised) ∨
  (st = .unknownPosition ∧ s.position = none ∧
    ((data = 0 ∧ ((∃ now, i = .run now) ∨ i = .isclosed)) ∨ (data = unknownData s.cfg ∧ i = .getpos))) ∨
  (st = .illegalCommand ∧ data = 0 ∧ (i = .reserved0 ∨ i = .reserved7))

/-- The five shapes of a completed command (R46, R47, R52 to R55, R63). -/
theorem exec_next {i : Instr} {s t : State} (h : exec i s = .next t) :
    (∃ st data, t = setResponse st data (noDrive s) ∧ answersOnly i s st data) ∨
    (i = .release ∧ t = setResponse .ok 0 (coilDrive 0#4 s)) ∨
    (i = .init ∧ t = setResponse .ok 0 (noDrive (armHoming s))) ∨
    (∃ d y u, i = .step d (.known y) ∧ seqStep d y s = .ok u ∧ t = setResponse .ok u.counter u) ∨
    (∃ now p, i = .run now ∧ s.position = some p ∧ p ≠ s.targetPosition ∧ s.nextStepTime ≤ now ∧
      emitStep now p s = .next t) := by
  cases i with
  | step d y =>
    cases y with
    | unrecognised => exact .inl ⟨_, _, raiseError_next.mp h, .inr (.inl ⟨rfl, rfl, d, rfl⟩)⟩
    | known y =>
      obtain ⟨u, hu, ht⟩ := execStep_known_next.mp h
      exact .inr (.inr (.inr (.inl ⟨d, y, u, rfl, hu, ht⟩)))
  | release => exact .inr (.inl ⟨rfl, respond_next.mp h⟩)
  | init => exact .inr (.inr (.inl ⟨rfl, respond_next.mp h⟩))
  | run now =>
    rcases execRun_next.mp h with ⟨hp, ht⟩ | ⟨p, hp, ⟨hi, ht⟩ | ⟨h1, h2, h3⟩⟩
    · exact .inl ⟨_, _, ht, .inr (.inr (.inl ⟨rfl, hp, .inl ⟨rfl, .inl ⟨now, rfl⟩⟩⟩))⟩
    · exact .inl ⟨_, _, ht, .inl ⟨rfl, .inl ⟨now, p, rfl, hp, hi, rfl⟩⟩⟩
    · exact .inr (.inr (.inr (.inr ⟨now, p, rfl, hp, h1, h2, h3⟩)))
  | getpos =>
    simp only [exec, execGetpos] at h
    split at h
    · rename_i hp
      exact .inl ⟨_, _, raiseError_next.mp h, .inr (.inr (.inl ⟨rfl, hp, .inr ⟨rfl, rfl⟩⟩))⟩
    · rename_i p hp
      exact .inl ⟨_, _, respond_next.mp h, .inl ⟨rfl, .inr (.inl ⟨rfl, hp⟩)⟩⟩
  | isclosed =>
    simp only [exec, execIsclosed] at h
    split at h
    · rename_i hp
      exact .inl ⟨_, _, raiseError_next.mp h, .inr (.inr (.inl ⟨rfl, hp, .inl ⟨rfl, .inr rfl⟩⟩))⟩
    · rename_i p hp
      exact .inl ⟨_, _, respond_next.mp h, .inl ⟨rfl, .inr (.inr ⟨rfl, p, hp, rfl⟩)⟩⟩
  | reserved0 => exact .inl ⟨_, _, raiseError_next.mp h, .inr (.inr (.inr ⟨rfl, rfl, .inl rfl⟩))⟩
  | reserved7 => exact .inl ⟨_, _, raiseError_next.mp h, .inr (.inr (.inr ⟨rfl, rfl, .inr rfl⟩))⟩

end Sys2Proof.Machine
end

