-- ==== Sys2Proof/Laws/PerInstr.lean ====
section
/-! SUPPORT. Facts said of every command as syntax, one lemma per constructor. -/

/-- The word of a command carries the `op` value of its row (R35). -/
def Sys2Proof.Laws.EncodedOp.Statement (i : Sys2Proof.Instr) : Prop :=
  Sys2Proof.opField (Sys2Proof.encode i) = Sys2Proof.opOf i

theorem Sys2Proof.Laws.EncodedOp.step (dir : Sys2Proof.Dir) (style : Sys2Proof.StyleOperand) :
    Sys2Proof.Laws.EncodedOp.Statement (.step dir style) := by
  cases dir <;> cases style with
  | known y => cases y <;> rfl
  | unrecognised => rfl

theorem Sys2Proof.Laws.EncodedOp.release : Sys2Proof.Laws.EncodedOp.Statement .release := rfl

theorem Sys2Proof.Laws.EncodedOp.init : Sys2Proof.Laws.EncodedOp.Statement .init := rfl

theorem Sys2Proof.Laws.EncodedOp.run (now : Nat) : Sys2Proof.Laws.EncodedOp.Statement (.run now) :=
  show Sys2Proof.opField (4#3 ++ 0#3) = 4#3 by decide

theorem Sys2Proof.Laws.EncodedOp.getpos : Sys2Proof.Laws.EncodedOp.Statement .getpos := rfl

theorem Sys2Proof.Laws.EncodedOp.isclosed : Sys2Proof.Laws.EncodedOp.Statement .isclosed := rfl

theorem Sys2Proof.Laws.EncodedOp.reserved0 : Sys2Proof.Laws.EncodedOp.Statement .reserved0 := rfl

theorem Sys2Proof.Laws.EncodedOp.reserved7 : Sys2Proof.Laws.EncodedOp.Statement .reserved7 := rfl
end

