-- ==== Sys2Proof/Laws/Step.lean ====
section
/-! SUPPORT. What an edge can answer, and runs of edges. -/

namespace Sys2Proof.Machine

/-- An edge that completes is a reset edge, an edge without a command, or one command (R42). -/
theorem step_next {s t : State} (h : step s = .next t) :
    configOK s.cfg = true ∧
    (t = applyReset (consume s) ∨ t = idleEdge (consume s) ∨
      ∃ i, i.wellFormed s.cfg.tw = true ∧ exec i (consume s) = .next t) := by
  unfold step edgeEvent at h
  split at h
  · rename_i hc
    refine ⟨hc, ?_⟩
    split at h
    · cases h
      exact .inl rfl
    · cases h
      exact .inr (.inl rfl)
    · rename_i i he
      refine .inr (.inr ⟨i, ?_, h⟩)
      split at he
      · cases he
      · split at he
        · split at he
          · cases he
            assumption
          · cases he
        · cases he
    · cases h
  · cases h

/-- One more edge of a run of the machine. -/
theorem core_run_succ (k : Nat) (s : State) :
    Host.Core.run Sys2Proof.core (k + 1) s =
      match step s with
      | .next t => Host.Core.run Sys2Proof.core k t
      | .fault r => .fault r
      | .refused r => .refused r := by
  simp only [Host.Core.run]
  cases h : step s <;> simp only [Sys2Proof.core, h]

/-- An induction over runs: what every edge keeps holds after any number of them. -/
theorem run_keeps {P : State → Prop} (hP : ∀ s t, P s → step s = .next t → P t) (k : Nat) :
    ∀ s t : State, P s → Host.Core.run Sys2Proof.core k s = .next t → P t := by
  induction k with
  | zero =>
    intro s t hs h
    cases h
    exact hs
  | succ k ih =>
    intro s t hs h
    rw [core_run_succ] at h
    cases hu : step s with
    | next u => rw [hu] at h; exact ih u t (hP s u hs hu) h
    | fault r => rw [hu] at h; cases h
    | refused r => rw [hu] at h; cases h

/-- Issuing two lists of commands one after the other. -/
theorem execAll_append (is js : List Instr) (s : State) :
    execAll (is ++ js) s =
      match execAll is s with
      | .next t => execAll js t
      | .fault r => .fault r
      | .refused r => .refused r := by
  induction is generalizing s with
  | nil => rfl
  | cons i is ih =>
    simp only [List.cons_append, execAll]
    cases exec i s <;> simp only [ih]

end Sys2Proof.Machine
end

