-- ==== Sys2Proof/Tests/Slice0.lean ====
section
/-! SUPPORT. Small tests, their expected results from spec/95_test_vectors.md, and for each statement with
hypotheses a concrete state and operands that meet them. -/

namespace Sys2Proof.Tests

open Sys2Proof.Machine

/-! ### Helpers -/

/-- The answer is a next state of which `p` holds. -/
def nextHas (o : Host.Outcome State Fault Refusal) (p : State → Bool) : Bool :=
  match o with
  | .next t => p t
  | .fault _ => false
  | .refused _ => false

/-- The answer is this refusal. -/
def refuses (o : Host.Outcome State Fault Refusal) (r : Refusal) : Bool :=
  match o with
  | .next _ => false
  | .fault _ => false
  | .refused q => decide (q = r)

theorem exists_next {o : Host.Outcome State Fault Refusal} {p : State → Bool} (h : nextHas o p = true) :
    ∃ t, o = .next t ∧ p t = true := by
  cases o with
  | next t => exact ⟨t, rfl, h⟩
  | fault r => cases h
  | refused r => cases h

theorem refused_of {o : Host.Outcome State Fault Refusal} {r : Refusal} (h : refuses o r = true) :
    o = .refused r := by
  cases o with
  | next t => cases h
  | fault r => cases h
  | refused q => exact congrArg _ (of_decide_eq_true h)

/-- The configuration of programs P3 and P4. -/
def cfgP3 : Config := { Config.standard with maxPulses := 2, overdrive := 1 }

/-- A sequencer with this counter and these coils. -/
def seqAt (c : Config) (n : Int) (p : Pattern) : State :=
  { State.atReset c with counter := n, active := some .single, pattern := p, coil := p }

/-- A homing controller: counter, levels, position, next step time. -/
def homingAt (c : Config) (n : Int) (p : Pattern) (pos : Int) (t : Nat) : State :=
  { seqAt c n p with position := some pos, nextStepTime := t }

/-- `s` with the host about to present these inputs. -/
def withInputs (ins : List PortInput) (s : State) : State := { s with hostInputs := ins }

/-! ### Decoding (95_test_vectors.md 2.3, words written out from R34 to R37) -/

theorem test_decode_reserved :
    decode 0b000000#6 0 = .reserved0 ∧ decode 0b000111#6 0 = .reserved0 ∧
    decode 0b111000#6 0 = .reserved7 ∧ decode 0b111111#6 0 = .reserved7 := by decide

theorem test_decode_step :
    decode 0b001000#6 0 = .step .forward (.known .single) ∧
    decode 0b001001#6 0 = .step .forward (.known .double) ∧
    decode 0b001011#6 0 = .step .forward .unrecognised ∧
    decode 0b001100#6 0 = .step .backward (.known .single) ∧
    decode 0b001110#6 0 = .step .backward (.known .interleave) := by decide

theorem test_decode_release_init :
    decode 0b010000#6 0 = .release ∧ decode 0b010111#6 0 = .release ∧
    decode 0b011000#6 0 = .init ∧ decode 0b011100#6 0 = .init := by decide

theorem test_decode_run :
    decode 0b100000#6 1000 = .run 1000 ∧ decode 0b100111#6 1000 = .run 1000 := by decide

theorem test_decode_queries :
    decode 0b101000#6 0 = .getpos ∧ decode 0b101101#6 0 = .getpos ∧
    decode 0b110000#6 0 = .isclosed ∧ decode 0b110111#6 0 = .isclosed := by decide

theorem test_decode_seven_bits_rejected :
    (match decodeNumber 0x40 0 with | .ok _ => false | .error e => decide (e = .wordTooWide)) = true := by
  decide

theorem test_decode_table_word :
    decodeTableWord 8 0x0E = some (.step .backward (.known .interleave)) ∧
    decodeTableWord 8 0x20 = some (.run 0) ∧ decodeTableWord 8 0x48 = none := by decide

theorem test_asm_text :
    asmText (.step .backward .unrecognised) = "STEP BWD, STYLE3" ∧ asmText (.cmd 0x3F#6) = ".cmd 0x3F" := by
  decide

/-! ### Well-formedness: a term each check refuses -/

theorem test_wellFormed_time :
    (Instr.run 65536).wellFormed 16 = false ∧ (Instr.run 65535).wellFormed 16 = true := by decide

/-- V-CFG-1, V-CFG-7, V-CFG-8. -/
theorem test_configOK_accepts :
    configOK Config.standard = true ∧
    configOK { Config.standard with maxPulses := 1, overdrive := 0, speeds := [1] } = true ∧
    configOK { Config.standard with tSingle := [0#4] } = true := by decide

/-- V-CFG-2 to V-CFG-6, V-CFG-9, and one configuration for each other condition of R7 (`PW >= 2` and
`TW >= 1` cannot fail alone: the position and the speeds then do not fit either). -/
theorem test_configOK_rejects :
    configOK { Config.standard with tSingle := [] } = false ∧
    configOK { Config.standard with tDouble := [] } = false ∧
    configOK { Config.standard with tInterleave := [] } = false ∧
    configOK { Config.standard with speeds := [] } = false ∧
    configOK { Config.standard with speeds := [1000, 0] } = false ∧
    configOK { Config.standard with speeds := [65536], tw := 16 } = false ∧
    configOK { Config.standard with maxPulses := 0 } = false ∧
    configOK { Config.standard with overdrive := -1 } = false ∧
    configOK { Config.standard with cw := 1 } = false ∧
    configOK { Config.standard with maxPulses := 1, overdrive := -1, pw := 1 } = false ∧
    configOK { Config.standard with speeds := [], tw := 0 } = false ∧
    configOK { Config.standard with maxPulses := 120, pw := 8 } = false := by decide

/-! ### fmod (95_test_vectors.md 2.1) -/

theorem test_fmod_negative :
    fmod (-1) 4 = 3 ∧ fmod (-9) 8 = 7 ∧ fmod (-5) 3 = 1 ∧ fmod (-4) 4 = 0 ∧ fmod (-9) 1 = 0 ∧
    fmod 9 4 = 1 := by decide

/-! ### One command each -/

/-- V-STEP-7: `fmod(-9, 8) = 7`. -/
theorem test_step_negative_index :
    nextHas (exec (.step .backward (.known .interleave)) (seqAt Config.standard (-8) 0b0101#4)) (fun t =>
      decide (t.counter = -9 ∧ t.active = some .interleave ∧ t.pattern = 0b1001#4 ∧ t.coil = 0b1001#4 ∧
        t.response = some ⟨.ok, -9⟩ ∧ t.coilWrites.length = 4)) = true := by decide

/-- V-STEP-17 and V-STEP-18: the refusal at the edge, and the error that comes before it. -/
theorem test_step_at_the_edge :
    refuses (exec (.step .forward (.known .single)) (seqAt { Config.standard with cw := 4 } 7 0#4))
      .counterOutOfRange = true ∧
    nextHas (exec (.step .forward .unrecognised) (seqAt { Config.standard with cw := 4 } 7 0#4)) (fun t =>
      decide (t.counter = 7 ∧ t.response = some ⟨.invalidArgument, 0⟩ ∧ t.coilWrites = [])) = true := by
  decide

/-- V-REL-2. -/
theorem test_release :
    nextHas (exec .release (seqAt Config.standard 5 0b0010#4)) (fun t =>
      decide (t.counter = 5 ∧ t.active = some .single ∧ t.pattern = 0b0010#4 ∧ t.coil = 0#4 ∧
        t.response = some ⟨.ok, 0⟩ ∧ t.coilWrites.length = 4)) = true := by decide

/-- V-INIT-2. -/
theorem test_init :
    nextHas (exec .init (homingAt Config.standard (-53) 0b1000#4 57 912000)) (fun t =>
      decide (t.position = some 110 ∧ t.nextStepTime = 0 ∧ t.counter = -53 ∧ t.coil = 0b1000#4 ∧
        t.response = some ⟨.ok, 0⟩ ∧ t.coilWrites = [])) = true := by decide

/-- V-RUN-4 (C1, a step at equality) and V-RUN-3. -/
theorem test_run_at_the_interval :
    nextHas (exec (.run 1000) (homingAt Config.standard (-1) 0b1000#4 109 1000)) (fun t =>
      decide (t.counter = -2 ∧ t.coil = 0b0100#4 ∧ t.position = some 108 ∧ t.nextStepTime = 2000 ∧
        t.response = some ⟨.ok, 0⟩ ∧ t.coilWrites.length = 4)) = true ∧
    nextHas (exec (.run 999) (homingAt Config.standard (-1) 0b1000#4 109 1000)) (fun t =>
      decide (t.counter = -1 ∧ t.position = some 109 ∧ t.nextStepTime = 1000 ∧ t.coilWrites = [])) = true := by
  decide

/-- V-RUN-12: 65000 + 1000 exceeds 65535. -/
theorem test_run_time_range :
    refuses (exec (.run 65000) (homingAt { Config.standard with tw := 16 } 0 0#4 5 0)) .timeOutOfRange = true := by
  decide

/-- V-POS-1 and V-POS-4. -/
theorem test_getpos :
    nextHas (exec .getpos State.reset) (fun t =>
      decide (t.response = some ⟨.unknownPosition, -2147483648⟩)) = true ∧
    nextHas (exec .getpos (homingAt Config.standard (-53) 0b1000#4 57 0)) (fun t =>
      decide (t.response = some ⟨.ok, 57⟩)) = true := by decide

/-- V-CLS-1, V-CLS-3, V-CLS-4. -/
theorem test_isclosed :
    nextHas (exec .isclosed State.reset) (fun t => decide (t.response = some ⟨.unknownPosition, 0⟩)) = true ∧
    nextHas (exec .isclosed (homingAt Config.standard 0 0#4 1 0)) (fun t =>
      decide (t.response = some ⟨.ok, 0⟩)) = true ∧
    nextHas (exec .isclosed (homingAt Config.standard 0 0#4 0 0)) (fun t =>
      decide (t.response = some ⟨.ok, 1⟩)) = true := by decide

/-- V-RSV-1 and V-RSV-4. -/
theorem test_reserved :
    nextHas (exec .reserved0 (seqAt Config.standard 5 0b0010#4)) (fun t =>
      decide (t.counter = 5 ∧ t.coil = 0b0010#4 ∧ t.response = some ⟨.illegalCommand, 0⟩)) = true ∧
    nextHas (exec .reserved7 (seqAt Config.standard 5 0b0010#4)) (fun t =>
      decide (t.counter = 5 ∧ t.coil = 0b0010#4 ∧ t.response = some ⟨.illegalCommand, 0⟩)) = true := by decide

/-! ### Edges -/

/-- V-RST-1: reset from the end of a homing; the command presented with it is ignored. -/
theorem test_reset_edge :
    nextHas (step (withInputs [⟨true, true, 0x08#6, 0⟩] (homingAt Config.standard (-110) 0b0100#4 0 110000)))
      (fun t => decide (t = State.reset)) = true := by decide

/-- The command in `cmd` runs as the first after reset (R42), and its response shows on the ports. -/
theorem test_first_command :
    nextHas (step (State.reset.withFetchWord 8 0x0C)) (fun t =>
      decide (t.counter = -1 ∧ t.coil = 0b1000#4 ∧ rspValid t = true ∧ rspStatus t = 0#2 ∧
        (rspData t).toInt = -1 ∧ coilWe t = true ∧ coilLine t 3 = true ∧ t.hostInputs = [])) = true := by
  decide

/-- The first line of program P3 is presented first (R43). -/
theorem test_load_program :
    nextHas (step (loadProgram [.getpos, .isclosed] State.reset)) (fun t =>
      decide (rspStatus t = 2#2 ∧ (rspData t).toInt = -2147483648 ∧
        t.hostInputs = [⟨false, true, 0x30#6, 0⟩])) = true := by decide

/-! ### Witnesses: the hypotheses of each statement can be met -/

/-- A state in the middle of the homing of program P3, after its line 7. -/
def midHoming : State := homingAt cfgP3 (-1) 0b1000#4 2 6000

/-- A homing state with these values has the invariant where the values are in range. -/
theorem inv_homingAt {c : Config} {n pos : Int} {p : Pattern} {t : Nat} (hc : configOK c = true)
    (hn : fitsSigned c.cw n = true) (hp : entryAt c .single n = some p)
    (hpos : 0 ≤ pos ∧ pos ≤ homePosition c) (ht : fitsUnsigned c.tw t = true) :
    Inv (homingAt c n p pos t) :=
  ⟨hc, hn, nofun, fun y hy => by cases hy; exact hp, .inr rfl, fun q hq => by cases hq; exact hpos,
    ⟨rfl, rfl, rfl⟩, ht, nofun, .inl rfl⟩

theorem test_midHoming_inv : Inv midHoming :=
  inv_homingAt (by decide) (by decide) (by decide) (by decide) (by decide)

theorem test_witness_DecodeIsTheSpecsDecodeFunction :
    (0x07#6).toNat / 8 = 0 ∧ (0x08#6).toNat / 8 = 1 ∧ (0x0F#6).toNat / 8 = 1 ∧ (0x17#6).toNat / 8 = 2 ∧
    (0x18#6).toNat / 8 = 3 ∧ (0x27#6).toNat / 8 = 4 ∧ (0x28#6).toNat / 8 = 5 ∧ (0x37#6).toNat / 8 = 6 ∧
    (0x38#6).toNat / 8 = 7 := by decide

theorem test_witness_LowBitsAreIgnoredOutsideStep :
    ((0x10#6).toNat / 8 ≠ 1 ∧ (0x17#6).toNat / 8 = (0x10#6).toNat / 8) ∧
    ∀ d y, Instr.run 7 ≠ .step d y := ⟨by decide, nofun⟩

theorem test_witness_FmodIsTheFlooredModulo :
    0 < 4 ∧ 3 < 4 ∧ ((4 : Nat) : Int) ∣ -1 - (3 : Nat) := by decide

theorem test_witness_ConfigOKIsItsConditions :
    configOK { Config.standard with speeds := [] } = false := by decide

theorem test_witness_TableReadsAreNeverOutOfRange : configOK cfgP3 = true := by decide

theorem test_witness_EdgeExecutesThePresentedCommand :
    configOK (withInputs [⟨false, true, 0x27#6, 6000⟩] midHoming).cfg = true ∧
    (withInputs [⟨false, true, 0x27#6, 6000⟩] midHoming).hostInputs = ⟨false, true, 0x27#6, 6000⟩ :: [] ∧
    (decode 0x27#6 6000).wellFormed cfgP3.tw = true := by decide

theorem test_witness_EdgeWithoutCommandChangesNoState :
    configOK midHoming.cfg = true ∧ midHoming.hostInputs = [] ∧
    (withInputs [⟨false, false, 0x08#6, 1⟩] midHoming).hostInputs = ⟨false, false, 0x08#6, 1⟩ :: [] ∧
    nextHas (step midHoming) (fun _ => true) = true := by decide

theorem test_witness_ResetEdgeGivesTheResetState :
    configOK midHoming.cfg = true ∧
    (withInputs [⟨true, true, 0x08#6, 1⟩] midHoming).hostInputs = ⟨true, true, 0x08#6, 1⟩ :: [] := by decide

theorem test_witness_PlacedWordIsExecutedNext : configOK State.reset.cfg = true ∧ 63 < 64 := by decide

theorem test_witness_TimeOutsideThePortIsRefused :
    configOK { cfgP3 with tw := 16 } = true ∧ (0x20#6).toNat / 8 = 4 ∧ 2 ^ 16 ≤ 65536 ∧
    refuses (step (withInputs [⟨false, true, 0x20#6, 65536⟩] (State.atReset { cfgP3 with tw := 16 })))
      .nowOutOfRange = true := by decide

theorem test_witness_ResponsePortsShowTheResponse :
    (setResponse .ok 3 State.reset).response = some ⟨.ok, 3⟩ ∧
    (setResponse .invalidArgument 0 State.reset).response = some ⟨.invalidArgument, 0⟩ ∧
    (setResponse .unknownPosition 0 State.reset).response = some ⟨.unknownPosition, 0⟩ ∧
    (setResponse .illegalCommand 0 State.reset).response = some ⟨.illegalCommand, 0⟩ ∧
    State.reset.response = none := by decide

theorem test_witness_ResponseDataReadsBackFromItsBits :
    Inv (setResponse .ok 2 midHoming) ∧ (setResponse .ok 2 midHoming).response = some ⟨.ok, 2⟩ :=
  have h := test_midHoming_inv
  ⟨⟨h.config, h.counterRange, h.beforeFirstStep, h.afterStep, h.coilLevels, h.positionBound, h.target,
    h.timeRange, fun r hr => by cases hr; decide, h.writes⟩, rfl⟩

theorem test_witness_UnknownDataIsNoLegalPosition :
    configOK cfgP3 = true ∧ (0 : Int) ≤ 0 ∧ 0 ≤ homePosition cfgP3 ∧ (0 : Int) ≤ 3 ∧ 3 ≤ homePosition cfgP3 := by
  decide

/-- Both ends of the counter's range, inside and outside. -/
theorem test_witness_StepCommandAdvancesOneEntry :
    (0x08#6).toNat / 8 = 1 ∧ (0x0F#6).toNat / 8 = 1 ∧ configOK cfgP3 = true ∧
    (seqAt cfgP3 2147483646 1#4).counter + (if Dir.forward = .forward then 1 else -1) = 2147483647 ∧
    fitsSigned cfgP3.cw 2147483647 = true ∧ ¬ fitsSigned cfgP3.cw 2147483648 = true ∧
    fitsSigned cfgP3.cw (-2147483648) = true ∧ ¬ fitsSigned cfgP3.cw (-2147483649) = true := by decide

theorem test_witness_ReleaseDeenergisesAllCoils : (0x10#6).toNat / 8 = 2 ∧ (0x17#6).toNat / 8 = 2 := by decide

theorem test_witness_InitDeclaresTheWorstCasePosition :
    (0x18#6).toNat / 8 = 3 ∧ (0x1F#6).toNat / 8 = 3 := by decide

/-- One state for each clause: unknown, at the target, waiting, refused for time, refused for the counter,
and emitting, at the boundary values. -/
theorem test_witness_RunEmitsAtMostOneStep :
    (0x20#6).toNat / 8 = 4 ∧ (0x27#6).toNat / 8 = 4 ∧ State.reset.position = none ∧
    (homingAt cfgP3 (-3) 0b0010#4 0 10000).position = some 0 ∧
    (0 : Int) = (homingAt cfgP3 (-3) 0b0010#4 0 10000).targetPosition ∧
    midHoming.position = some 2 ∧ 5999 < midHoming.nextStepTime ∧
    configOK midHoming.cfg = true ∧ (2 : Int) ≠ midHoming.targetPosition ∧ midHoming.nextStepTime ≤ 6000 ∧
    midHoming.cfg.speeds[midHoming.targetLevel]? = some 1000 ∧
    (-1 : Int) = (if midHoming.targetDir = .closing then -1 else 1) ∧
    2 ^ midHoming.cfg.tw - 1 < 18446744073709550616 + 1000 ∧
    18446744073709550615 + 1000 ≤ 2 ^ midHoming.cfg.tw - 1 ∧
    ¬ fitsSigned midHoming.cfg.cw ((homingAt cfgP3 (-2147483648) 0b1000#4 2 6000).counter + -1) = true ∧
    fitsSigned midHoming.cfg.cw (midHoming.counter + -1) = true ∧
    fitsSigned midHoming.cfg.pw (2 + -1) = true := by decide

theorem test_witness_PositionLeavingItsRangeIsRefused :
    configOK cfgP3 = true ∧ (homingAt cfgP3 0 0#4 (-2147483648) 0).position = some (-2147483648) ∧
    (-2147483648 : Int) ≠ (homingAt cfgP3 0 0#4 (-2147483648) 0).targetPosition ∧
    cfgP3.speeds[0]? = some 1000 ∧ 0 + 1000 ≤ 2 ^ cfgP3.tw - 1 ∧ fitsSigned cfgP3.cw (0 + -1) = true ∧
    ¬ fitsSigned cfgP3.pw (-2147483648 + -1) = true ∧
    refuses (exec (.run 0) (homingAt cfgP3 0 0#4 (-2147483648) 0)) .positionOutOfRange = true := by decide

theorem test_witness_SpeedLevelOutsideTheTableIsRefused :
    midHoming.position = some 2 ∧ (2 : Int) ≠ midHoming.targetPosition ∧ midHoming.nextStepTime ≤ 6000 ∧
    midHoming.cfg.speeds.length ≤ 2 ∧
    refuses (exec (.run 6000) { midHoming with targetLevel := 2 }) .speedLevelOutOfRange = true := by decide

theorem test_witness_GetposReportsThePosition :
    (0x28#6).toNat / 8 = 5 ∧ (0x2F#6).toNat / 8 = 5 ∧ State.reset.position = none ∧
    midHoming.position = some 2 := by decide

theorem test_witness_IsclosedTestsPositionZero :
    (0x30#6).toNat / 8 = 6 ∧ (0x37#6).toNat / 8 = 6 ∧ State.reset.position = none ∧
    (homingAt cfgP3 0 0#4 0 0).position = some 0 ∧ (homingAt cfgP3 0 0#4 1 0).position = some 1 ∧
    (1 : Int) ≠ 0 := by decide

theorem test_witness_ReservedWordsAreIllegalCommands :
    (0x07#6).toNat / 8 = 0 ∧ (0x38#6).toNat / 8 = 7 := by decide

theorem test_witness_InvalidArgumentIsRaisedByUnrecognisedStyleAlone :
    ∃ t, exec (.step .backward .unrecognised) midHoming = .next t ∧
      decide (t.response = some ⟨.invalidArgument, 0⟩) = true := exists_next (by decide)

theorem test_witness_UnknownPositionIsReportedUntilTheFirstInit :
    (∃ t, exec (.run 5) State.reset = .next t ∧ decide (t.response = some ⟨.unknownPosition, 0⟩) = true) ∧
    ∃ t, exec .init State.reset = .next t ∧ decide (t.position = some 110) = true :=
  ⟨exists_next (by decide), exists_next (by decide)⟩

theorem test_witness_ErrorsChangeNothing :
    ∃ t, exec .reserved7 midHoming = .next t ∧
      decide (t.response = some ⟨.illegalCommand, 0⟩ ∧ Status.illegalCommand ≠ .ok) = true :=
  exists_next (by decide)

theorem test_witness_EveryCommandAnswersAndDrivesAtMostOnce :
    ∃ t, exec .release midHoming = .next t ∧ coilWe t = true := exists_next (by decide)

/-- A STEP and a RUN at the edge of the counter's range, in a state that has the invariant. -/
theorem test_witness_OnlyRangesAreRefused :
    Inv (homingAt { cfgP3 with cw := 2 } (-2) 0b0100#4 2 6000) ∧
    exec (.step .backward (.known .double)) (homingAt { cfgP3 with cw := 2 } (-2) 0b0100#4 2 6000) =
      .refused .counterOutOfRange ∧
    exec (.run 6000) (homingAt { cfgP3 with cw := 2 } (-2) 0b0100#4 2 6000) =
      .refused .counterOutOfRange ∧
    exec (.run 18446744073709551000) midHoming = .refused .timeOutOfRange :=
  ⟨inv_homingAt (by decide) (by decide) (by decide) (by decide) (by decide),
   refused_of (by decide), refused_of (by decide), refused_of (by decide)⟩

theorem test_witness_SequencerCommandsLeaveTheController :
    (∃ t, exec (.step .forward (.known .double)) midHoming = .next t ∧ decide (t.counter = 0) = true) ∧
    ∃ t, exec .release midHoming = .next t ∧ decide (t.coil = 0#4) = true :=
  ⟨exists_next (by decide), exists_next (by decide)⟩

theorem test_witness_ControllerCommandsLeaveTheRest :
    (∃ t, exec .init midHoming = .next t ∧ decide (t.position = some 3) = true) ∧
    (∃ t, exec (.run 5999) midHoming = .next t ∧ decide (coilWe t = false) = true) ∧
    (∃ t, exec (.run 6000) midHoming = .next t ∧ coilWe t = true) ∧
    ∃ t, exec .getpos midHoming = .next t ∧ decide (t.response = some ⟨.ok, 2⟩) = true :=
  ⟨exists_next (by decide), exists_next (by decide), exists_next (by decide), exists_next (by decide)⟩

theorem test_witness_CounterMovesOnlyByEmittedSteps :
    ∃ t, exec (.run 6000) midHoming = .next t ∧ decide (t.counter = -2) = true := exists_next (by decide)

theorem test_witness_ActivePatternAndCoilAreNeverRead :
    ∃ t, exec .isclosed midHoming = .next t ∧ decide (t.response = some ⟨.ok, 0⟩) = true :=
  exists_next (by decide)

theorem test_witness_EveryEdgeKeepsTheConfiguration :
    ∃ t, step (withInputs [⟨false, true, 0x18#6, 0⟩] midHoming) = .next t ∧ decide (t.hostInputs = []) = true :=
  exists_next (by decide)

theorem test_witness_SteppingWrapsAroundTheTable :
    configOK (State.atReset cfgP3).cfg = true ∧ (State.atReset cfgP3).counter = 0 ∧ 1 ≤ 1 ∧
    fitsSigned cfgP3.cw ((2147483647 : Nat) : Int) = true ∧
    fitsSigned cfgP3.cw (-((2147483648 : Nat) : Int)) = true := by decide

theorem test_witness_ForwardThenBackwardRestoresTheCounter :
    configOK midHoming.cfg = true ∧ 1 ≤ 3 ∧ fitsSigned midHoming.cfg.cw midHoming.counter = true ∧
    fitsSigned midHoming.cfg.cw (midHoming.counter + (3 : Nat)) = true := by decide

theorem test_witness_StyleSwitchKeepsTheCounter :
    ∃ t u, exec (.step .backward (.known .single)) midHoming = .next t ∧
      exec (.step .backward (.known .interleave)) t = .next u := by
  obtain ⟨t, ht, h⟩ := exists_next
    (o := exec (.step .backward (.known .single)) midHoming)
    (p := fun t => nextHas (exec (.step .backward (.known .interleave)) t) (fun _ => true)) (by decide)
  obtain ⟨u, hu, -⟩ := exists_next (o := exec (.step .backward (.known .interleave)) t)
    (p := fun _ => true) h
  exact ⟨t, u, ht, hu⟩

theorem test_witness_ReleaseIsIdempotentAndForgottenByTheNextStep : 1 ≤ 1 := by decide

/-- A closing and an opening emission. -/
theorem test_witness_ClosingIsBackwardOpeningIsForward :
    (∃ t, exec (.run 6000) midHoming = .next t ∧ coilWe t = true) ∧ midHoming.targetDir = .closing ∧
    ∃ t, exec (.run 6000) { midHoming with targetDir := .opening } = .next t ∧ coilWe t = true :=
  ⟨exists_next (by decide), by decide, exists_next (by decide)⟩

theorem test_witness_FirstRunAfterInitSteps :
    configOK midHoming.cfg = true ∧ midHoming.cfg.speeds[0]? = some 1000 ∧
    0 + 1000 ≤ 2 ^ midHoming.cfg.tw - 1 ∧ fitsSigned midHoming.cfg.cw (midHoming.counter - 1) = true := by
  decide

/-- The RUN of P3's line 9; the times 6999 and 7000 of a following RUN are the two sides of the pacing test. -/
theorem test_witness_PacingIsTheElapsedInterval :
    Inv midHoming ∧ midHoming.cfg.speeds[0]? = some 1000 ∧
    (∃ t, exec (.run 6000) midHoming = .next t ∧
      decide (coilWe t = true ∧ phase t = .homing ∧ fitsSigned midHoming.cfg.cw (t.counter - 1) = true) =
        true) ∧
    6999 < 6000 + 1000 ∧ 6000 + 1000 ≤ 7000 ∧ 7000 + 1000 ≤ 2 ^ midHoming.cfg.tw - 1 :=
  ⟨test_midHoming_inv, by decide, exists_next (by decide), by decide, by decide, by decide⟩

/-- Program P3: INIT and its five RUN commands. -/
theorem test_witness_HomingIsClosingStepsOfTheSequencer :
    configOK cfgP3 = true ∧ ∃ s0, exec .init (State.atReset cfgP3) = .next s0 ∧
      nextHas (execAll ([5000, 5999, 6000, 6000, 9000].map Instr.run) s0)
        (fun t => decide (t.position = some 0)) = true :=
  ⟨by decide, exists_next (by decide)⟩

theorem test_witness_PacedHomingEndsClosed :
    configOK cfgP3 = true ∧ cfgP3.speeds[0]? = some 1000 ∧
    [5000, 6000, 9000].Pairwise (fun a b => a + 1000 ≤ b) ∧
    (([5000, 6000, 9000] : List Nat).length : Int) = cfgP3.maxPulses + cfgP3.overdrive ∧
    (∀ n ∈ [5000, 6000, 9000], n + 1000 ≤ 2 ^ cfgP3.tw - 1) ∧
    fitsSigned cfgP3.cw (State.atReset cfgP3).counter = true ∧
    fitsSigned cfgP3.cw ((State.atReset cfgP3).counter - 3) = true ∧
    nextHas (exec .init (State.atReset cfgP3)) (fun _ => true) = true := by decide

/-- The tables of D11 hold no all-zero entry, at every counter value. -/
theorem test_witness_OnlyReleaseDeenergisesTheCoils :
    (∀ y n e, entryAt midHoming.cfg y n = some e → e ≠ 0#4) ∧ midHoming.coil ≠ 0#4 ∧
    (∃ t, exec .getpos midHoming = .next t ∧ decide (Instr.getpos ≠ .release) = true) ∧
    phase (homingAt cfgP3 (-3) 0b0010#4 0 10000) = .idleAtTarget := by
  refine ⟨fun y n e h => ?_, by decide, exists_next (by decide), by decide⟩
  have hm : e ∈ table midHoming.cfg y := List.mem_of_getElem? h
  have hall : ∀ y, ∀ e ∈ table midHoming.cfg y, e ≠ 0#4 := fun y => by cases y <;> decide
  exact hall y e hm

theorem test_witness_PhasesFollowInitAndRun :
    configOK cfgP3 = true ∧
    (∃ t, exec (.run 7000) (homingAt cfgP3 (-2) 0b0100#4 1 7000) = .next t ∧
      decide (t.position = some t.targetPosition) = true) ∧
    phase midHoming ≠ .uninitialized := ⟨by decide, exists_next (by decide), by decide⟩

theorem test_witness_InvHoldsAtReset : configOK Config.standard = true := by decide

theorem test_witness_EveryEdgeKeepsInv :
    Inv midHoming ∧ ∃ t, step midHoming = .next t ∧ decide (t.counter = -1) = true :=
  ⟨test_midHoming_inv, exists_next (by decide)⟩

/-- The state after P3's INIT is reached. -/
theorem test_witness_ReachableStatesAreBounded :
    ∃ t, Sys2Proof.core.run 1 { State.atReset cfgP3 with hostInputs := [⟨false, true, 0x18#6, 0⟩] } = .next t ∧
      decide (t.position = some 3) = true ∧ Reachable t := by
  obtain ⟨t, ht, hp⟩ := exists_next
    (o := Sys2Proof.core.run 1 { State.atReset cfgP3 with hostInputs := [⟨false, true, 0x18#6, 0⟩] })
    (p := fun t => decide (t.position = some 3)) (by decide)
  exact ⟨t, ht, hp, cfgP3, _, 1, by decide, ht⟩

end Sys2Proof.Tests
end

section
/-! SUPPORT. 00_scope.md: `ConfigOK` (R7), the floored modulo (R8), and what the ranges of R6 mean for a
state with the invariant: every edge keeps it, and nothing but a counter or time range is refused. -/

namespace Sys2Proof.Machine

/-! ### The configuration and the floored modulo -/

/-- `ConfigOK` spelled out, with the home position and the power as the rule writes them (R7). -/
theorem configOK_iff (c : Config) :
    configOK c = true ↔
      1 ≤ c.tSingle.length ∧ 1 ≤ c.tDouble.length ∧ 1 ≤ c.tInterleave.length ∧
      1 ≤ c.maxPulses ∧ 0 ≤ c.overdrive ∧
      1 ≤ c.speeds.length ∧ (∀ d ∈ c.speeds, 1 ≤ d ∧ d ≤ 2 ^ c.tw - 1) ∧
      2 ≤ c.cw ∧ 2 ≤ c.pw ∧ 1 ≤ c.tw ∧
      c.maxPulses + c.overdrive ≤ (2 : Int) ^ (c.pw - 1) - 1 := by
  simp only [configOK, homePosition, Bool.and_eq_true, List.all_eq_true, decide_eq_true_eq, and_assoc,
    Nat.cast_pow, Nat.cast_ofNat]

/-- Without `ConfigOK` every edge is refused (R7, U1). -/
theorem step_of_not_configOK {s : State} (h : configOK s.cfg = false) :
    step s = .refused .configurationError := by
  simp only [step, h, Bool.false_eq_true, if_false]

/-- Settles O8: the conditions are those of `configOK_iff`. -/
theorem configOKIsItsConditions : Obligations.ConfigOKIsItsConditions :=
  ⟨configOK_iff, fun _ => step_of_not_configOK⟩

/-- A number below `L` that differs from `a` by a multiple of `L` is the floored modulo (R8). -/
theorem eq_fmod_of_dvd_sub {a : Int} {L r : Nat} (hr : r < L) (h : (L : Int) ∣ a - r) : r = fmod a L := by
  have hcast : (fmod a L : Int) = r := calc
    (fmod a L : Int) = a % L := fmod_cast a (by omega)
    _ = r % L := (Int.modEq_iff_dvd.mpr h).symm
    _ = r := Int.emod_eq_of_lt (by omega) (by omega)
  omega

/-- Settles O7: range, divisibility and uniqueness of the floored modulo. -/
theorem fmodIsTheFlooredModulo : Obligations.FmodIsTheFlooredModulo := by
  intro a L hL
  refine ⟨fmod_lt a hL, ?_, fun r hr h => eq_fmod_of_dvd_sub hr h⟩
  rw [fmod_cast a hL]
  exact Int.dvd_self_sub_emod

/-! ### What fits the ports of a well-formed configuration (R6, R41) -/

theorem fitsSigned_zero (w : Nat) : fitsSigned w 0 := by
  have hpow : 0 < (2 ^ (w - 1) : Nat) := Nat.two_pow_pos _
  rw [fitsSigned_iff]
  omega

/-- Every legal position fits the position width (R7). -/
theorem fitsSigned_position {c : Config} (h : configOK c = true) {p : Int} (h0 : 0 ≤ p)
    (hp : p ≤ homePosition c) : fitsSigned c.pw p := by
  have hhome := (homePosition_bounds h).2
  rw [fitsSigned_iff] at hhome ⊢
  omega

/-- The response port is at least two bits wide, so it carries ISCLOSED's 0 and 1 (R7, R41). -/
theorem fitsSigned_closedData {c : Config} (h : configOK c = true) (p : Int) :
    fitsSigned (dataWidth c) (closedData p) := by
  obtain ⟨-, -, -, -, -, -, -, hcw, -⟩ := (configOK_iff c).mp h
  have hpow : (2 ^ 1 : Nat) ≤ 2 ^ (c.cw - 1) := Nat.pow_le_pow_right (by decide) (by omega)
  refine fitsSigned_mono (le_max_left c.cw c.pw) (fitsSigned_iff.mpr ?_)
  unfold closedData
  split <;> omega

/-- The sentinel is the least number of the response port (R41). -/
theorem fitsSigned_unknownData (c : Config) : fitsSigned (dataWidth c) (unknownData c) := by
  have hpow : 0 < (2 ^ (dataWidth c - 1) : Nat) := Nat.two_pow_pos _
  rw [fitsSigned_iff, unknownData]
  omega

/-! ### The invariant, operation by operation -/

/-- Reset gives a state with the invariant (R75). -/
theorem inv_atReset {c : Config} (h : configOK c = true) : Inv (State.atReset c) where
  config := h
  counterRange := fitsSigned_zero c.cw
  beforeFirstStep _ := ⟨rfl, rfl⟩
  afterStep := nofun
  coilLevels := .inl rfl
  positionBound := nofun
  target := ⟨rfl, rfl, rfl⟩
  timeRange := fitsUnsigned_iff.mpr (Nat.zero_le _)
  responseRange := nofun
  writes := .inl rfl

theorem inv_applyReset {s : State} (h : configOK s.cfg = true) : Inv (applyReset s) :=
  { inv_atReset h with }

theorem inv_consume {s : State} (h : Inv s) : Inv (consume s) := { h with }

theorem inv_noDrive {s : State} (h : Inv s) : Inv (noDrive s) := { h with writes := .inl rfl }

theorem inv_idleEdge {s : State} (h : Inv s) : Inv (idleEdge s) :=
  { h with responseRange := nofun, writes := .inl rfl }

/-- A response keeps the invariant when its data fits the port (R41). -/
theorem inv_setResponse {s : State} (h : Inv s) {st : Status} {data : Int}
    (hd : fitsSigned (dataWidth s.cfg) data) : Inv (setResponse st data s) :=
  { h with responseRange := by rintro r ⟨⟩; exact hd }

/-- De-energising the coils keeps the invariant (R47). -/
theorem inv_coilDrive_zero {s : State} (h : Inv s) : Inv (coilDrive 0#4 s) :=
  { h with coilLevels := .inl rfl, writes := .inr rfl }

/-- INIT declares the largest legal position (R52). -/
theorem inv_armHoming {s : State} (h : Inv s) : Inv (armHoming s) :=
  { h with
    positionBound := by
      rintro p ⟨⟩
      have hhome := (homePosition_bounds h.config).1
      exact ⟨by omega, le_rfl⟩
    target := ⟨rfl, rfl, rfl⟩
    timeRange := fitsUnsigned_iff.mpr (Nat.zero_le _) }

/-- What `SeqStep` writes ties the new pattern to the new counter and the active table (R45). -/
theorem inv_writeStep {s : State} (h : Inv s) {n : Int} {y : Style} {p : Pattern}
    (hn : fitsSigned s.cfg.cw n) (hp : entryAt s.cfg y n = some p) : Inv (writeStep n y p s) :=
  { h with
    counterRange := hn
    beforeFirstStep := nofun
    afterStep := by rintro _ ⟨⟩; exact hp
    coilLevels := .inr rfl
    writes := .inr rfl }

theorem inv_seqStep {s u : State} (h : Inv s) {d : Dir} {y : Style} (hu : seqStep d y s = .ok u) :
    Inv u := by
  obtain ⟨hn, p, hp, rfl⟩ := seqStep_ok.mp hu
  exact inv_writeStep h hn hp

theorem inv_recordEmission {s : State} (h : Inv s) {p : Int} {t : Nat}
    (hp : 0 ≤ p ∧ p ≤ homePosition s.cfg) (ht : fitsUnsigned s.cfg.tw t) : Inv (recordEmission p t s) :=
  { h with positionBound := by rintro _ ⟨⟩; exact hp, timeRange := ht }

/-! ### The invariant, command by command -/

/-- The target is 0 and the direction CLOSING, so a step emitted away from the target ends at a legal
position (R21, R53). -/
theorem emitted_position_bounds {s : State} (h : Inv s) {p : Int} (hp : s.position = some p)
    (hne : p ≠ s.targetPosition) :
    0 ≤ p + positionDelta s.targetDir ∧ p + positionDelta s.targetDir ≤ homePosition s.cfg := by
  obtain ⟨hpos, hdir, -⟩ := h.target
  obtain ⟨h0, h1⟩ := h.positionBound p hp
  rw [hdir, positionDelta]
  omega

theorem inv_emitStep {s t : State} (h : Inv s) {now : Nat} {p : Int} (hp : s.position = some p)
    (hne : p ≠ s.targetPosition) (ht : emitStep now p s = .next t) : Inv t := by
  obtain ⟨d, u, -, htime, hu, -, rfl⟩ := emitStep_next.mp ht
  obtain ⟨hn, e, he, rfl⟩ := seqStep_ok.mp hu
  have hrec := inv_recordEmission (inv_writeStep h hn he) (emitted_position_bounds h hp hne) htime
  exact inv_setResponse hrec (fitsSigned_zero _)

/-- The data of a command that only answers fits the response port (R41). -/
theorem answersOnly_data_fits {s : State} (h : Inv s) {i : Instr} {st : Status} {data : Int}
    (ha : answersOnly i s st data) : fitsSigned (dataWidth s.cfg) data := by
  rcases ha with ⟨-, ⟨_, _, -, -, -, rfl⟩ | ⟨-, hp⟩ | ⟨-, p, -, rfl⟩⟩ | ⟨-, rfl, -⟩ |
    ⟨-, -, ⟨rfl, -⟩ | ⟨rfl, -⟩⟩ | ⟨-, rfl, -⟩
  · exact fitsSigned_zero _
  · obtain ⟨h0, h1⟩ := h.positionBound data hp
    exact fitsSigned_mono (le_max_right s.cfg.cw s.cfg.pw) (fitsSigned_position h.config h0 h1)
  · exact fitsSigned_closedData h.config p
  · exact fitsSigned_zero _
  · exact fitsSigned_zero _
  · exact fitsSigned_unknownData s.cfg
  · exact fitsSigned_zero _

/-- Every command that completes keeps the invariant (R21). -/
theorem inv_exec {s t : State} (h : Inv s) {i : Instr} (ht : exec i s = .next t) : Inv t := by
  rcases exec_next ht with ⟨st, data, rfl, ha⟩ | ⟨-, rfl⟩ | ⟨-, rfl⟩ | ⟨d, y, u, -, hu, rfl⟩ |
    ⟨now, p, -, hp, hne, -, he⟩
  · exact inv_setResponse (inv_noDrive h) (answersOnly_data_fits h ha)
  · exact inv_setResponse (inv_coilDrive_zero h) (fitsSigned_zero _)
  · exact inv_setResponse (inv_noDrive (inv_armHoming h)) (fitsSigned_zero _)
  · have hinv := inv_seqStep h hu
    exact inv_setResponse hinv (fitsSigned_mono (le_max_left u.cfg.cw u.cfg.pw) hinv.counterRange)
  · exact inv_emitStep h hp hne he

/-- Settles O52: a reset edge starts over, an idle edge clears the outputs, and a command keeps the
invariant by `inv_exec`. -/
theorem everyEdgeKeepsInv : Obligations.EveryEdgeKeepsInv := by
  intro s t h ht
  obtain ⟨hc, rfl | rfl | ⟨i, -, hi⟩⟩ := step_next ht
  · exact inv_applyReset hc
  · exact inv_idleEdge (inv_consume h)
  · exact inv_exec (inv_consume h) hi

/-! ### Refusals -/

/-- Only STEP with a recognised style and a due RUN are ever refused, each by the operation it calls (R46,
R53). -/
theorem exec_refused {i : Instr} {s : State} {r : Refusal} (h : exec i s = .refused r) :
    (∃ d y, i = .step d (.known y) ∧ seqStep d y s = .error r) ∨
    (∃ now p, i = .run now ∧ s.position = some p ∧ p ≠ s.targetPosition ∧ s.nextStepTime ≤ now ∧
      emitStep now p s = .refused r) := by
  cases i with
  | step d y =>
    cases y with
    | unrecognised => cases h
    | known y =>
      simp only [exec, execStep] at h
      split at h
      · cases h
      · rename_i e he
        cases h
        exact .inl ⟨d, y, rfl, he⟩
  | run now =>
    simp only [exec, execRun] at h
    split at h
    · cases h
    · rename_i p hp
      split_ifs at h with hpos hdue
      · cases h
      · cases h
      · exact .inr ⟨now, p, rfl, hp, hpos, not_lt.mp hdue, h⟩
  | getpos =>
    simp only [exec, execGetpos] at h
    split at h <;> cases h
  | isclosed =>
    simp only [exec, execIsclosed] at h
    split at h <;> cases h
  | release => cases h
  | init => cases h
  | reserved0 => cases h
  | reserved7 => cases h

/-- With the invariant an emission finds its speed and ends at a legal position, so it is refused for the
counter or the time alone (R6, R24). -/
theorem emitStep_refused_of_inv {s : State} (h : Inv s) {now : Nat} {p : Int} {r : Refusal}
    (hp : s.position = some p) (hne : p ≠ s.targetPosition) (hr : emitStep now p s = .refused r) :
    r = .counterOutOfRange ∨ r = .timeOutOfRange := by
  rcases emitStep_refused h.config hr with ⟨-, hnone⟩ | ⟨_, rfl, -⟩ | ⟨rfl, -⟩ | ⟨-, hfit⟩
  · obtain ⟨-, -, hlevel⟩ := h.target
    obtain ⟨d, hd⟩ := speedRead_some h.config
    rw [hlevel, hd] at hnone
    cases hnone
  · exact .inr rfl
  · exact .inl rfl
  · obtain ⟨h0, h1⟩ := emitted_position_bounds h hp hne
    exact absurd (fitsSigned_position h.config h0 h1) hfit

/-- Settles O33: the two commands of `exec_refused`, each by what its operation refuses. -/
theorem onlyRangesAreRefused : Obligations.OnlyRangesAreRefused := by
  intro i s r h hr
  obtain ⟨d, y, rfl, he⟩ | ⟨now, p, rfl, hp, hne, -, he⟩ := exec_refused hr
  · obtain ⟨-, rfl⟩ := (seqStep_error h.config).mp he
    exact .inl ⟨rfl, .inl ⟨d, y, rfl⟩⟩
  · obtain rfl | rfl := emitStep_refused_of_inv h hp hne he
    · exact .inl ⟨rfl, .inr ⟨now, rfl⟩⟩
    · exact .inr ⟨rfl, now, rfl⟩

end Sys2Proof.Machine
end

section
/-! SUPPORT. 10_state.md: which commands move the counter, what no command reads or writes, the three
phases (R18), and the bounds of every reachable state (R21). -/

namespace Sys2Proof.Machine

/-! ### What a completed command writes -/

/-- `exec_next` with the two stepping shapes written out as updates of the old state (R46, R53). -/
theorem exec_writes {i : Instr} {s t : State} (h : exec i s = .next t) :
    (∃ st data, answersOnly i s st data ∧ t = setResponse st data (noDrive s)) ∨
    (i = .release ∧ t = setResponse .ok 0 (coilDrive 0#4 s)) ∨
    (i = .init ∧ t = setResponse .ok 0 (noDrive (armHoming s))) ∨
    (∃ d y e, i = .step d (.known y) ∧
      t = setResponse .ok (s.counter + stepDelta d) (writeStep (s.counter + stepDelta d) y e s)) ∨
    (∃ now p time e, i = .run now ∧ s.position = some p ∧
      t = setResponse .ok 0 (recordEmission (p + positionDelta s.targetDir) time
        (writeStep (s.counter + stepDelta (sequencerDir s.targetDir)) s.cfg.eevStyle e s))) := by
  rcases exec_next h with ⟨st, data, ht, ha⟩ | hrelease | hinit | ⟨d, y, u, hi, hu, ht⟩ |
    ⟨now, p, hi, hp, -, -, he⟩
  · exact .inl ⟨st, data, ha, ht⟩
  · exact .inr (.inl hrelease)
  · exact .inr (.inr (.inl hinit))
  · obtain ⟨-, e, -, rfl⟩ := seqStep_ok.mp hu
    exact .inr (.inr (.inr (.inl ⟨d, y, e, hi, ht⟩)))
  · obtain ⟨d, u, -, -, hu, -, ht⟩ := emitStep_next.mp he
    obtain ⟨-, e, -, rfl⟩ := seqStep_ok.mp hu
    exact .inr (.inr (.inr (.inr ⟨now, p, now + d, e, hi, hp, ht⟩)))

/-- No command writes the configuration or the host's inputs (R20, R42). -/
theorem exec_frame {i : Instr} {s t : State} (h : exec i s = .next t) :
    t.cfg = s.cfg ∧ t.hostInputs = s.hostInputs := by
  rcases exec_writes h with ⟨_, _, -, rfl⟩ | ⟨-, rfl⟩ | ⟨-, rfl⟩ | ⟨_, _, _, -, rfl⟩ |
    ⟨_, _, _, _, -, -, rfl⟩ <;> exact ⟨rfl, rfl⟩

/-- Settles O39: only `consume`, once per edge, touches the host's inputs, and nothing the configuration. -/
theorem everyEdgeKeepsTheConfiguration : Obligations.EveryEdgeKeepsTheConfiguration := by
  intro s t h
  obtain ⟨-, rfl | rfl | ⟨i, -, hi⟩⟩ := step_next h
  · exact ⟨rfl, rfl⟩
  · exact ⟨rfl, rfl⟩
  · exact exec_frame hi

/-! ### The counter -/

theorem stepDelta_cases (d : Dir) : stepDelta d = 1 ∨ stepDelta d = -1 := by
  cases d
  · exact .inl rfl
  · exact .inr rfl

/-- A command that only answers is no STEP with a recognised style. -/
theorem answersOnly_not_known_step {i : Instr} {s : State} {st : Status} {data : Int}
    (h : answersOnly i s st data) : ¬ ∃ d y, i = .step d (.known y) := by
  rintro ⟨d, y, rfl⟩
  simp [answersOnly] at h

/-- Settles O36: of the shapes of `exec_writes` the two that write a step add `stepDelta` to the counter and
drive the coils; the others leave the counter, and INIT and RELEASE are neither STEP nor RUN. -/
theorem counterMovesOnlyByEmittedSteps : Obligations.CounterMovesOnlyByEmittedSteps := by
  intro i s t h
  rcases exec_writes h with ⟨st, data, ha, rfl⟩ | ⟨rfl, rfl⟩ | ⟨rfl, rfl⟩ | ⟨d, y, e, rfl, rfl⟩ |
    ⟨now, p, time, e, rfl, -, rfl⟩
  · simp [answersOnly_not_known_step ha, coilWe]
  · simp
  · simp
  · obtain hd | hd := stepDelta_cases d <;> simp [hd, sub_eq_add_neg]
  · obtain hd | hd := stepDelta_cases (sequencerDir s.targetDir) <;>
      simp [hd, sub_eq_add_neg, coilWe, driveWrites]

/-! ### The outputs of the last command are not read -/

/-- The state with other outputs on its ports (R42). -/
def withOutputs (r : Option Response) (ws : List CoilWrite) (s : State) : State :=
  { s with response := r, coilWrites := ws }

/-- `SeqStep` reads neither output, replaces the coil writes and passes the response on (R45). -/
theorem seqStep_withOutputs (d : Dir) (y : Style) (r : Option Response) (ws : List CoilWrite)
    (s : State) :
    seqStep d y (withOutputs r ws s) =
      (seqStep d y s).map fun u => withOutputs r u.coilWrites u := by
  by_cases hn : fitsSigned s.cfg.cw (s.counter + stepDelta d)
  · simp only [seqStep, withOutputs, hn, if_true]
    cases entryAt s.cfg y (s.counter + stepDelta d) <;> rfl
  · simp only [seqStep, withOutputs, hn, if_false, Except.map, Bool.false_eq_true]

theorem execStep_withOutputs (d : Dir) (y : StyleOperand) (r : Option Response) (ws : List CoilWrite)
    (s : State) : execStep d y (withOutputs r ws s) = execStep d y s := by
  cases y with
  | unrecognised => rfl
  | known y =>
    simp only [execStep, seqStep_withOutputs]
    cases seqStep d y s <;> rfl

theorem emitStep_withOutputs (now : Nat) (p : Int) (r : Option Response) (ws : List CoilWrite)
    (s : State) : emitStep now p (withOutputs r ws s) = emitStep now p s := by
  simp only [emitStep, seqStep_withOutputs]
  simp only [withOutputs]
  cases seqStep (sequencerDir s.targetDir) s.cfg.eevStyle s <;> rfl

theorem execRun_withOutputs (now : Nat) (r : Option Response) (ws : List CoilWrite) (s : State) :
    execRun now (withOutputs r ws s) = execRun now s := by
  simp only [execRun, emitStep_withOutputs]
  rfl

/-- Settles O37: a command that steps does so by `SeqStep`, and every other one replaces both outputs
without reading them. -/
theorem responsesAreNotKept : Obligations.ResponsesAreNotKept := by
  intro i s r ws
  cases i with
  | step d y => exact execStep_withOutputs d y r ws s
  | run now => exact execRun_withOutputs now r ws s
  | release => rfl
  | init => rfl
  | getpos => rfl
  | isclosed => rfl
  | reserved0 => rfl
  | reserved7 => rfl

/-! ### `active`, `pattern` and `coil` are not read -/

/-- The state with other values of `active`, `pattern` and `coil` (R12 to R14). -/
def withLevels (a : Option Style) (p q : Pattern) (s : State) : State :=
  { s with active := a, pattern := p, coil := q }

/-- `SeqStep` overwrites all three (R45). -/
theorem seqStep_withLevels (d : Dir) (y : Style) (a : Option Style) (p q : Pattern) (s : State) :
    seqStep d y (withLevels a p q s) = seqStep d y s := rfl

/-- So does an emission, which steps by `SeqStep` (R53). -/
theorem emitStep_withLevels (now : Nat) (pos : Int) (a : Option Style) (p q : Pattern) (s : State) :
    emitStep now pos (withLevels a p q s) = emitStep now pos s := rfl

/-- The converse of the first shape of `exec_next`: a command that only answers does complete. -/
theorem exec_of_answersOnly {i : Instr} {s : State} {st : Status} {data : Int}
    (h : answersOnly i s st data) : exec i s = .next (setResponse st data (noDrive s)) := by
  rcases h with ⟨rfl, ⟨now, p, rfl, hp, hidle, rfl⟩ | ⟨rfl, hp⟩ | ⟨rfl, p, hp, rfl⟩⟩ |
    ⟨rfl, rfl, d, rfl⟩ | ⟨rfl, hp, ⟨rfl, ⟨now, rfl⟩ | rfl⟩ | ⟨rfl, rfl⟩⟩ | ⟨rfl, rfl, rfl | rfl⟩
  · exact execRun_next.mpr (.inr ⟨p, hp, .inl ⟨hidle, rfl⟩⟩)
  · simp only [exec, execGetpos, hp, respond]
  · simp only [exec, execIsclosed, hp, respond]
  · rfl
  · exact execRun_next.mpr (.inl ⟨hp, rfl⟩)
  · simp only [exec, execIsclosed, hp, raiseError, errorStatus, respond]
  · simp only [exec, execGetpos, hp, raiseError, errorStatus, respond]
  · rfl
  · rfl

/-- A command that completes does so with any other values of the three, and its two results differ in
those alone: a command that steps overwrites all three, RELEASE the coil, every other one none. -/
theorem exec_withLevels {i : Instr} {s t : State} (h : exec i s = .next t) (a : Option Style)
    (p q : Pattern) :
    ∃ a' p' q', exec i (withLevels a p q s) = .next (withLevels a' p' q' t) := by
  rcases exec_next h with ⟨st, data, rfl, ha⟩ | ⟨rfl, rfl⟩ | ⟨rfl, rfl⟩ | ⟨d, y, u, rfl, hu, rfl⟩ |
    ⟨now, pos, rfl, hpos, hne, hdue, he⟩
  · exact ⟨a, p, q, exec_of_answersOnly (s := withLevels a p q s) ha⟩
  · exact ⟨a, p, 0#4, rfl⟩
  · exact ⟨a, p, q, rfl⟩
  · exact ⟨u.active, u.pattern, u.coil,
      execStep_known_next.mpr ⟨u, (seqStep_withLevels d y a p q s).trans hu, rfl⟩⟩
  · have he' := (emitStep_withLevels now pos a p q s).trans he
    exact ⟨t.active, t.pattern, t.coil, execRun_next.mpr (.inr ⟨pos, hpos, .inr ⟨hne, hdue, he'⟩⟩)⟩

/-- Settles O38: the two results of `exec_withLevels` agree in every other field. -/
theorem activePatternAndCoilAreNeverRead : Obligations.ActivePatternAndCoilAreNeverRead := by
  intro i s t a p q h
  obtain ⟨a', p', q', hu⟩ := exec_withLevels h a p q
  exact ⟨withLevels a' p' q' t, hu, rfl, rfl, rfl, rfl, rfl, rfl, rfl, rfl, rfl, rfl⟩

/-! ### The three phases -/

/-- Each phase in terms of the position and the target (R18). -/
theorem phase_iff (s : State) :
    (phase s = .uninitialized ↔ s.position = none) ∧
    (phase s = .idleAtTarget ↔ s.position = some s.targetPosition) ∧
    (phase s = .homing ↔ s.position ≠ none ∧ s.position ≠ some s.targetPosition) := by
  unfold phase
  cases s.position with
  | none => simp
  | some p => by_cases hp : p = s.targetPosition <;> simp [hp]

/-- INIT gives Homing under `ConfigOK`: it declares a position of at least 1 (R7, R52). -/
theorem phase_execInit {s : State} (h : configOK s.cfg = true) :
    ∃ t, exec .init s = .next t ∧ phase t = .homing := by
  obtain ⟨-, -, homing_iff⟩ := phase_iff (setResponse .ok 0 (noDrive (armHoming s)))
  refine ⟨_, rfl, homing_iff.mpr ⟨nofun, ?_⟩⟩
  have hhome := (homePosition_bounds h).1
  simp only [setResponse_position, noDrive_position, armHoming_position, setResponse_targetPosition,
    noDrive_targetPosition, armHoming_targetPosition, ne_eq, Option.some.injEq]
  omega

/-- No command makes a known position unknown (R15). -/
theorem exec_keeps_position_known {i : Instr} {s t : State} (h : exec i s = .next t)
    (hs : s.position ≠ none) : t.position ≠ none := by
  rcases exec_writes h with ⟨_, _, -, rfl⟩ | ⟨-, rfl⟩ | ⟨-, rfl⟩ | ⟨_, _, _, -, rfl⟩ |
    ⟨_, _, _, _, -, -, rfl⟩
  · exact hs
  · exact hs
  · exact nofun
  · exact hs
  · exact nofun

/-- Settles O50: each phase by `phase_iff`, INIT by the bound on the home position, and no way back because
a known position stays known. -/
theorem phasesFollowInitAndRun : Obligations.PhasesFollowInitAndRun := by
  refine ⟨phase_iff, fun _ => rfl, fun _ => phase_execInit, ?_, ?_⟩
  · intro s t now _ ht
    obtain ⟨-, idle_iff, -⟩ := phase_iff t
    exact idle_iff.mpr ht
  · intro i s t h hs ht
    obtain ⟨unknown_iff, -⟩ := phase_iff s
    obtain ⟨unknown_iff', -⟩ := phase_iff t
    exact exec_keeps_position_known h (mt unknown_iff.mpr hs) (unknown_iff'.mp ht)

/-! ### The bounds of every reachable state -/

/-- Every reachable state has the invariant: reset does, whatever the host presents, and every edge keeps
it. -/
theorem inv_of_reachable {s : State} (h : Reachable s) : Inv s := by
  obtain ⟨c, ins, k, hc, hrun⟩ := h
  have hreset : Inv { State.atReset c with hostInputs := ins } := { inv_atReset hc with }
  exact run_keeps everyEdgeKeepsInv k _ s hreset hrun

/-- With the invariant the pattern is 0000 or an entry of one of the three tables (R13, R21). -/
theorem pattern_mem_of_inv {s : State} (h : Inv s) :
    s.pattern = 0#4 ∨ s.pattern ∈ s.cfg.tSingle ∨ s.pattern ∈ s.cfg.tDouble ∨
      s.pattern ∈ s.cfg.tInterleave := by
  cases ha : s.active with
  | none => exact .inl (h.beforeFirstStep ha).2
  | some y =>
    have hmem := mem_table_of_entryAt (h.afterStep y ha)
    cases y with
    | single => exact .inr (.inl hmem)
    | double => exact .inr (.inr (.inl hmem))
    | interleave => exact .inr (.inr (.inr hmem))

/-- Settles O53: the bounds are parts of the invariant. -/
theorem reachableStatesAreBounded : Obligations.ReachableStatesAreBounded := by
  intro s hs
  have h := inv_of_reachable hs
  obtain ⟨hpos, hdir, hlevel⟩ := h.target
  exact ⟨h.positionBound, hpos, hdir, hlevel, pattern_mem_of_inv h, h.coilLevels⟩

end Sys2Proof.Machine
end

section
/-! SUPPORT. 20_memory.md: the reads of the pattern and speed tables (R24) and the four output lines, which
only a coil drive writes (R25, R27). -/

namespace Sys2Proof.Machine

/-! ### Table reads -/

/-- The entry at counter `n` is the table's entry at `n` modulo its length (R8, R24). -/
theorem entryAt_eq_getElem? (c : Config) (y : Style) (n : Int) :
    entryAt c y n = (table c y)[(n % (table c y).length).toNat]? := rfl

/-- Whatever the counter, a table read of a well-formed instance gives the entry of the step (R24). -/
theorem table_getElem?_emod {c : Config} (h : configOK c = true) (y : Style) (n : Int) :
    ∃ p, (table c y)[(n % (table c y).length).toNat]? = some p ∧ entryAt c y n = some p := by
  obtain ⟨p, hp⟩ := entryAt_some h y n
  exact ⟨p, entryAt_eq_getElem? c y n ▸ hp, hp⟩

/-- Settles O9: each table is that of a style, and `SPEEDS` is not empty. -/
theorem tableReadsAreNeverOutOfRange : Obligations.TableReadsAreNeverOutOfRange := by
  intro c h
  obtain ⟨d, hd⟩ := speedRead_some h
  exact ⟨table_getElem?_emod h .single, table_getElem?_emod h .double, table_getElem?_emod h .interleave,
    d, hd, hd⟩

/-! ### The output lines -/

/-- A drive writes each line once, in the order of the lines, with the pattern's bit of that line (R27). -/
theorem driveWrites_eq_ofFn (p : Pattern) :
    driveWrites p = List.ofFn fun i : Fin 4 => ⟨i, p.getLsbD i.val⟩ := rfl

theorem driveWrites_length (p : Pattern) : (driveWrites p).length = 4 := rfl

theorem driveWrites_getElem? (p : Pattern) (i : Fin 4) :
    (driveWrites p)[i.val]? = some ⟨i, p.getLsbD i.val⟩ := by
  rw [driveWrites_eq_ofFn, List.getElem?_ofFn, dif_pos i.isLt]

/-- After a drive line `i` shows bit `i` of the pattern (R25). -/
@[simp] theorem coilLine_coilDrive (p : Pattern) (s : State) (i : Fin 4) :
    coilLine (coilDrive p s) i = p.getLsbD i.val := rfl

/-- A pattern is the sum of its bits with their weights (R8). -/
theorem pattern_toNat_eq_sum_bits (p : Pattern) :
    p.toNat = (p.getLsbD 0).toNat + 2 * (p.getLsbD 1).toNat + 4 * (p.getLsbD 2).toNat +
      8 * (p.getLsbD 3).toNat := by
  have hlt : p.toNat < 16 := p.isLt
  have hbit (i : Nat) : (p.getLsbD i).toNat = p.toNat / 2 ^ i % 2 := Nat.toNat_testBit _ _
  simp only [hbit]
  omega

/-- Settles O10: the writes are those of `driveWrites`, the lines those of the new `coil`. -/
theorem coilDriveWritesEveryLineOnce : Obligations.CoilDriveWritesEveryLineOnce :=
  fun p s => ⟨coilDrive_coil p s, driveWrites_length p, driveWrites_getElem? p, coilLine_coilDrive p s,
    pattern_toNat_eq_sum_bits p⟩

end Sys2Proof.Machine
end

section
/-! SUPPORT. 30_encoding.md: the decoder against the encoder (R34 to R40, R44), the assembler's words
(R43), the response and its data bits (R41), and what one edge does with its inputs (R42). -/

namespace Sys2Proof

/-! ### The decoder -/

/-- A word whose three low bits are no operand decodes to the command with its `op` value; a RUN takes the
time presented beside it (R35, R38, R40). -/
theorem decode_eq_of_opField {w : CmdWord} {now : Nat} {i : Instr} (hop : opField w = opOf i)
    (hstep : ∀ d y, i ≠ .step d y) (hrun : ∀ t, i = .run t → t = now) : decode w now = i := by
  cases i with
  | step d y => exact absurd rfl (hstep d y)
  | run t =>
    obtain rfl := hrun t rfl
    simp [decode, hop, opOf]
  | release | init | getpos | isclosed | reserved0 | reserved7 => simp [decode, hop, opOf]

/-- A word with `op = 1` decodes to STEP with the operands its fields spell (R36, R37). -/
theorem decode_eq_step {w : CmdWord} (hop : opField w = 1#3) (now : Nat) :
    decode w now = .step (decodeDir (dirField w)) (decodeStyle (styleField w)) :=
  if_pos hop

/-- The decoded command has the `op` value of the word (R35). -/
theorem opOf_decode (w : CmdWord) (now : Nat) : opOf (decode w now) = opField w := by
  unfold decode
  dsimp only
  split_ifs with h1 h2 h3 h4 h5 h6 h7
  · exact h1.symm
  · exact h2.symm
  · exact h3.symm
  · exact h4.symm
  · exact h5.symm
  · exact h6.symm
  · exact h7.symm
  · rw [opOf]
    bv_omega

theorem opField_eq_iff {w : CmdWord} {b : BitVec 3} : opField w = b ↔ w.toNat / 8 = b.toNat := by
  rw [← opField_toNat, BitVec.toNat_inj]

/-- The direction of a word, read off its number (R34, R36). -/
theorem decodeDir_dirField (w : CmdWord) :
    decodeDir (dirField w) = if w.toNat / 4 % 2 = 0 then .forward else .backward := by
  simp only [decodeDir, ← BitVec.toNat_inj, dirField_toNat, BitVec.reduceToNat]

/-- The style operand of a word, read off its number (R34, R37). -/
theorem decodeStyle_styleField (w : CmdWord) :
    decodeStyle (styleField w) =
      if w.toNat % 4 = 0 then .known .single
      else if w.toNat % 4 = 1 then .known .double
      else if w.toNat % 4 = 2 then .known .interleave
      else .unrecognised := by
  simp only [decodeStyle, ← BitVec.toNat_inj, styleField_toNat, BitVec.reduceToNat]

/-- Settles O1: STEP by its two operand fields, the others by their `op` value alone. -/
theorem decodeIsTheSpecsDecodeFunction : Obligations.DecodeIsTheSpecsDecodeFunction := by
  intro w now
  refine ⟨fun h => ?_, fun h => ?_, fun h => ?_, fun h => ?_, fun h => ?_, fun h => ?_, fun h => ?_,
    fun h => ?_⟩
  · exact decode_eq_of_opField (opField_of_toNat h) nofun nofun
  · rw [decode_eq_step (opField_of_toNat h), decodeDir_dirField, decodeStyle_styleField]
  · exact decode_eq_of_opField (opField_of_toNat h) nofun nofun
  · exact decode_eq_of_opField (opField_of_toNat h) nofun nofun
  · exact decode_eq_of_opField (opField_of_toNat h) nofun (by rintro _ ⟨⟩; rfl)
  · exact decode_eq_of_opField (opField_of_toNat h) nofun nofun
  · exact decode_eq_of_opField (opField_of_toNat h) nofun nofun
  · exact decode_eq_of_opField (opField_of_toNat h) nofun nofun

/-- Settles O5: each listed word evaluates to its command. -/
theorem listedWordsDecodeAsListed : Obligations.ListedWordsDecodeAsListed := fun _ =>
  ⟨rfl, rfl, rfl, rfl, rfl, rfl, rfl, rfl, rfl, rfl, rfl, rfl, rfl, rfl, rfl, rfl, rfl, rfl⟩

/-! ### The encoder -/

/-- Except for STEP a command is encoded as its `op` value over three zero bits (R35, R38). -/
theorem encode_eq_opOf_append {i : Instr} (hstep : ∀ d y, i ≠ .step d y) :
    encode i = opOf i ++ 0#3 := by
  cases i with
  | step d y => exact absurd rfl (hstep d y)
  | run | release | init | getpos | isclosed | reserved0 | reserved7 => rfl

theorem toNat_append_zero (b : BitVec 3) : (b ++ 0#3 : CmdWord).toNat = b.toNat * 8 := by
  rw [BitVec.toNat_append, BitVec.toNat_ofNat, Nat.zero_mod, Nat.or_zero, Nat.shiftLeft_eq]

/-- The time beside a command that is no RUN is 0 (log entry 10). -/
theorem timeOperand_of_opOf_ne {i : Instr} (h : opOf i ≠ 4#3) : timeOperand i = 0 := by
  cases i with
  | run _ => exact absurd rfl h
  | step | release | init | getpos | isclosed | reserved0 | reserved7 => rfl

/-- Settles O2: the decoder looks at `op` alone, and the encoder appends three zero bits to it. -/
theorem lowBitsAreIgnoredOutsideStep : Obligations.LowBitsAreIgnoredOutsideStep := by
  refine ⟨fun w v now hw hv => ?_, fun i hstep => ?_⟩
  · have hop : opField v = opField w := opField_eq_iff.mpr (hv.trans (opField_toNat w).symm)
    have hne : opField w ≠ 1#3 := mt opField_eq_iff.mp hw
    simp only [decode, hop, hne, if_false]
  · rw [encode_eq_opOf_append hstep, toNat_append_zero, Nat.mul_mod_left]

/-! ### Decoding what was encoded -/

theorem decodeDir_encodeDir (d : Dir) : decodeDir (encodeDir d) = d := by
  cases d <;> rfl

theorem decodeStyle_encodeStyle (y : StyleOperand) : decodeStyle (encodeStyle y) = y := by
  cases y with
  | known y => cases y <;> rfl
  | unrecognised => rfl

theorem dirField_encode_step (d : Dir) (y : StyleOperand) :
    dirField (encode (.step d y)) = encodeDir d := by
  rw [dirField, encode, BitVec.extractLsb'_append_eq_of_le le_rfl]
  exact BitVec.extractLsb'_append_eq_right

theorem styleField_encode_step (d : Dir) (y : StyleOperand) :
    styleField (encode (.step d y)) = encodeStyle y :=
  BitVec.extractLsb'_append_eq_right

/-- STEP's word keeps both operands (R36, R37). -/
theorem decode_encode_step (d : Dir) (y : StyleOperand) (now : Nat) :
    decode (encode (.step d y)) now = .step d y := by
  rw [decode_eq_step (Laws.EncodedOp.step d y), dirField_encode_step, styleField_encode_step,
    decodeDir_encodeDir, decodeStyle_encodeStyle]

/-- Every command is decoded from its word and its time (R44). -/
theorem decode_encode (i : Instr) : decode (encode i) (timeOperand i) = i := by
  cases i with
  | step d y => exact decode_encode_step d y 0
  | release => exact decode_eq_of_opField Laws.EncodedOp.release nofun nofun
  | init => exact decode_eq_of_opField Laws.EncodedOp.init nofun nofun
  | run t => exact decode_eq_of_opField (Laws.EncodedOp.run t) nofun (by rintro _ ⟨⟩; rfl)
  | getpos => exact decode_eq_of_opField Laws.EncodedOp.getpos nofun nofun
  | isclosed => exact decode_eq_of_opField Laws.EncodedOp.isclosed nofun nofun
  | reserved0 => exact decode_eq_of_opField Laws.EncodedOp.reserved0 nofun nofun
  | reserved7 => exact decode_eq_of_opField Laws.EncodedOp.reserved7 nofun nofun

/-- Settles O3: STEP by its two operand fields, RUN by the time beside its word, the others by `op`. -/
theorem decodeOfEncodeIsTheCommand : Obligations.DecodeOfEncodeIsTheCommand := decode_encode

/-! ### Encoding what was decoded -/

theorem encodeDir_decodeDir (b : BitVec 1) : encodeDir (decodeDir b) = b := by
  revert b
  decide

theorem encodeStyle_decodeStyle (b : BitVec 2) : encodeStyle (decodeStyle b) = b := by
  revert b
  decide

/-- The three fields make up the word (R34). -/
theorem fields_append (w : CmdWord) : opField w ++ dirField w ++ styleField w = w := by
  revert w
  decide

/-- A STEP word carries no ignored bit (R38). -/
theorem encode_decode_of_step {w : CmdWord} (hop : opField w = 1#3) (now : Nat) :
    encode (decode w now) = w := by
  rw [decode_eq_step hop, encode, encodeDir_decodeDir, encodeStyle_decodeStyle, ← hop, fields_append]

/-- Every other word comes back with its three low bits zero (R38). -/
theorem encode_decode_of_not_step {w : CmdWord} (hop : opField w ≠ 1#3) (now : Nat) :
    encode (decode w now) = opField w ++ 0#3 := by
  have hstep : ∀ d y, decode w now ≠ .step d y := fun d y h =>
    hop (by rw [← opOf_decode w now, h, opOf])
  rw [encode_eq_opOf_append hstep, opOf_decode]

/-- RUN takes the time presented beside its word; beside any other the value is dropped (R40). -/
theorem timeOperand_decode (w : CmdWord) (now : Nat) :
    timeOperand (decode w now) = if opField w = 4#3 then now else 0 := by
  split_ifs with h
  · rw [decode_eq_of_opField (i := .run now) h nofun (by rintro _ ⟨⟩; rfl), timeOperand]
  · exact timeOperand_of_opOf_ne (by rwa [opOf_decode])

/-- Settles O4: a STEP word is its three fields, any other word keeps its `op` value. -/
theorem encodeOfDecodeIsTheCanonicalWord : Obligations.EncodeOfDecodeIsTheCanonicalWord := by
  intro w now
  refine ⟨?_, ?_⟩
  · split_ifs with h
    · rw [encode_decode_of_step (opField_eq_iff.mpr h)]
    · rw [encode_decode_of_not_step (mt opField_eq_iff.mp h), toNat_append_zero, opField_toNat]
  · simp only [timeOperand_decode, opField_eq_iff, BitVec.reduceToNat]

end Sys2Proof

namespace Sys2Proof.Machine

/-! ### The assembler -/

/-- The table of R43 lists for STEP the encoder's words. -/
theorem asmWord_step (d : Dir) (y : StyleOperand) : asmWord (.step d y) = encode (.step d y) := by
  cases d <;> cases y with
  | known y => cases y <;> rfl
  | unrecognised => rfl

/-- Settles O6: a line's word and time are those of the encoder, so `decode_encode` names the command; the
words themselves are read off the table. -/
theorem assembledLineIsTheNamedCommand : Obligations.AssembledLineIsTheNamedCommand :=
  ⟨fun d y => asmWord_step d y ▸ decode_encode_step d y 0, decode_encode .release, decode_encode .init,
    fun t => decode_encode (.run t), decode_encode .getpos, decode_encode .isclosed, fun _ => rfl,
    rfl, rfl, rfl, rfl, rfl, rfl, rfl, rfl, rfl, rfl, fun _ => rfl, rfl, rfl, fun _ => rfl, fun _ => rfl,
    fun _ => ⟨rfl, rfl, rfl, rfl⟩⟩

/-! ### The response and its ports -/

/-- A response shows `rsp_valid` and the code of its status (R41, R42). -/
theorem rspPorts_of_response {s : State} {r : Response} (h : s.response = some r) :
    rspValid s = true ∧ rspStatus s = statusCode r.status := by
  simp only [rspValid, rspStatus, h, Option.isSome_some, and_self]

/-- Without a response its three outputs are 0 (R42). -/
theorem rspPorts_of_no_response {s : State} (h : s.response = none) :
    rspValid s = false ∧ rspStatus s = 0#2 ∧ rspData s = 0 := by
  simp only [rspValid, rspStatus, rspData, h, Option.isSome_none, and_self]

/-- Settles O17: the code is that of the response's status. -/
theorem responsePortsShowTheResponse : Obligations.ResponsePortsShowTheResponse := fun _ _ =>
  ⟨rspPorts_of_response, rspPorts_of_response, rspPorts_of_response, rspPorts_of_response,
    rspPorts_of_no_response⟩

/-- The response port has a sign bit (R6, R7). -/
theorem dataWidth_pos {c : Config} (h : configOK c = true) : 0 < dataWidth c := by
  obtain ⟨-, -, -, -, -, -, -, hcw, -⟩ := (configOK_iff c).mp h
  have hle : c.cw ≤ dataWidth c := le_max_left c.cw c.pw
  omega

/-- A number in the range of the port reads back from its bits (R8, R41). -/
theorem toInt_ofInt_of_fitsSigned {w : Nat} {v : Int} (hw : 0 < w) (hv : fitsSigned w v) :
    (BitVec.ofInt w v).toInt = v := by
  obtain ⟨hlo, hhi⟩ := fitsSigned_iff.mp hv
  rw [Nat.cast_pow, Nat.cast_ofNat] at hlo hhi
  exact BitVec.toInt_ofInt_eq_self hw hlo (by omega)

/-- Settles O18: the invariant keeps the data in the range of the port. -/
theorem responseDataReadsBackFromItsBits : Obligations.ResponseDataReadsBackFromItsBits := by
  intro s r h hr
  simp only [rspData, hr]
  exact toInt_ofInt_of_fitsSigned (dataWidth_pos h.config) (h.responseRange r hr)

theorem unknownData_neg (c : Config) : unknownData c < 0 := by
  have hpow : 0 < (2 ^ (dataWidth c - 1) : Nat) := Nat.two_pow_pos _
  rw [unknownData]
  omega

/-- Settles O19: the sentinel is negative, and on the port both it and the position read back. -/
theorem unknownDataIsNoLegalPosition : Obligations.UnknownDataIsNoLegalPosition := by
  intro c p hc h0 hp
  have hneg := unknownData_neg c
  have hne : unknownData c ≠ p := by omega
  have hfits : fitsSigned (dataWidth c) p :=
    fitsSigned_mono (le_max_right c.cw c.pw) (fitsSigned_position hc h0 hp)
  refine ⟨hne, hneg.ne, fun hbits => hne ?_⟩
  have hint := congrArg BitVec.toInt hbits
  rwa [toInt_ofInt_of_fitsSigned (dataWidth_pos hc) (fitsSigned_unknownData c),
    toInt_ofInt_of_fitsSigned (dataWidth_pos hc) hfits] at hint

/-- Settles O32: of the shapes of `exec_writes` three end in one drive, of 0000 or of the new pattern, and
two make no write. -/
theorem everyCommandAnswersAndDrivesAtMostOnce :
    Obligations.EveryCommandAnswersAndDrivesAtMostOnce := by
  intro i s t h
  rcases exec_writes h with ⟨_, _, -, rfl⟩ | ⟨-, rfl⟩ | ⟨-, rfl⟩ | ⟨_, _, _, -, rfl⟩ |
    ⟨_, _, _, _, -, -, rfl⟩
  · exact ⟨rfl, .inl ⟨rfl, rfl, rfl⟩⟩
  · exact ⟨rfl, .inr ⟨rfl, rfl⟩⟩
  · exact ⟨rfl, .inl ⟨rfl, rfl, rfl⟩⟩
  · exact ⟨rfl, .inr ⟨rfl, rfl⟩⟩
  · exact ⟨rfl, .inr ⟨rfl, rfl⟩⟩

/-! ### One edge -/

/-- A command on the port is executed, when its time fits the port (R42). -/
theorem step_of_command {s : State} {w : CmdWord} {now : Nat} (hc : configOK s.cfg = true)
    (hp : presented s = ⟨false, true, w, now⟩) (hwf : (decode w now).wellFormed s.cfg.tw = true) :
    step s = exec (decode w now) (consume s) := by
  simp only [step, edgeEvent, hc, hp, hwf, if_true, Bool.false_eq_true, if_false]

/-- Without `rst` and `cmd_valid` the edge is idle (R42). -/
theorem step_of_no_command {s : State} (hc : configOK s.cfg = true) (hrst : (presented s).rst = false)
    (hvalid : (presented s).cmdValid = false) : step s = .next (idleEdge (consume s)) := by
  simp only [step, edgeEvent, hc, hrst, hvalid, if_true, Bool.false_eq_true, if_false]

theorem presented_of_cons {s : State} {p : PortInput} {rest : List PortInput}
    (h : s.hostInputs = p :: rest) : presented s = p := by
  rw [presented, h, List.headD_cons]

/-- Past the end of the host's inputs no command is presented (log entry 3). -/
theorem presented_of_nil {s : State} (h : s.hostInputs = []) : presented s = idleInput := by
  rw [presented, h, List.headD_nil]

theorem consume_of_cons {s : State} {p : PortInput} {rest : List PortInput}
    (h : s.hostInputs = p :: rest) : consume s = { s with hostInputs := rest } := by
  rw [consume, h, List.tail_cons]

/-- Settles O11: the first of the inputs is the one presented, and the edge consumes it alone. -/
theorem edgeExecutesThePresentedCommand : Obligations.EdgeExecutesThePresentedCommand := by
  intro s w now rest hc hin hwf
  rw [step_of_command hc (presented_of_cons hin) hwf, consume_of_cons hin]

/-- Settles O12: either way `rst` and `cmd_valid` are 0, and the idle edge holds no output. -/
theorem edgeWithoutCommandChangesNoState : Obligations.EdgeWithoutCommandChangesNoState := by
  intro s hc hin
  obtain ⟨hrst, hno⟩ : (presented s).rst = false ∧ (presented s).cmdValid = false := by
    rcases hin with hnil | ⟨w, now, rest, hcons⟩
    · rw [presented_of_nil hnil]
      exact ⟨rfl, rfl⟩
    · rw [presented_of_cons hcons]
      exact ⟨rfl, rfl⟩
  have hidle := step_of_no_command hc hrst hno
  refine ⟨hidle, fun t ht => ?_⟩
  obtain rfl := Host.Outcome.next.inj (hidle.symm.trans ht)
  obtain ⟨hvalid, hstatus, hdata⟩ := rspPorts_of_no_response (idleEdge_response (consume s))
  exact ⟨hvalid, hstatus, hdata, rfl⟩

/-- Only the time operand of a command can be ill formed, and 0 never is (R40). -/
theorem wellFormed_of_timeOperand_zero {i : Instr} (h : timeOperand i = 0) (tw : Nat) :
    i.wellFormed tw = true := by
  cases i with
  | run now =>
    obtain rfl : now = 0 := h
    exact decide_eq_true (Nat.zero_le (2 ^ tw - 1))
  | step | release | init | getpos | isclosed | reserved0 | reserved7 => rfl

/-- Whatever the word, 0 beside it fits the port. -/
theorem wellFormed_decode_zero (w : CmdWord) (tw : Nat) : (decode w 0).wellFormed tw = true :=
  wellFormed_of_timeOperand_zero ((timeOperand_decode w 0).trans (ite_self 0)) tw

/-- The table's reading of a six-bit number (R34). -/
theorem decodeTableWord_eq {w : Nat} (h : w < 64) :
    decodeTableWord 8 w = some (decode (BitVec.ofNat 6 w) 0) := by
  rw [decodeTableWord, Nat.mod_eq_of_lt (by omega), decodeNumber, if_pos h]

theorem withFetchWord_eq {w : Nat} (h : w < 64) (s : State) :
    s.withFetchWord 8 w =
      { s with hostInputs := ⟨false, true, BitVec.ofNat 6 w, 0⟩ :: s.hostInputs } := by
  rw [State.withFetchWord, Nat.mod_eq_of_lt (by omega), presentWord, if_pos h]

/-- Settles O15: the placed word is the one presented, and with time 0 it is always well formed. -/
theorem placedWordIsExecutedNext : Obligations.PlacedWordIsExecutedNext := by
  intro s w hc hw
  refine ⟨_, decodeTableWord_eq hw, ?_⟩
  rw [withFetchWord_eq hw]
  exact step_of_command hc rfl (wellFormed_decode_zero _ _)

end Sys2Proof.Machine
end

section
/-! SUPPORT. 40_sequencer.md: one STEP and one RELEASE (R45 to R47), sequences of STEP commands (R48 to
R50), and that the next STEP does not see a RELEASE (R51). -/

namespace Sys2Proof.Machine

/-! ### One command -/

theorem stepDelta_eq_ite (d : Dir) : stepDelta d = if d = .forward then 1 else -1 := by
  cases d <;> rfl

/-- When STEP with a recognised style completes, and with what (R45, R46). -/
theorem exec_step_known_next {d : Dir} {y : Style} {s t : State} :
    exec (.step d (.known y)) s = .next t ↔
      fitsSigned s.cfg.cw (s.counter + stepDelta d) ∧
      ∃ p, entryAt s.cfg y (s.counter + stepDelta d) = some p ∧
        t = setResponse .ok (s.counter + stepDelta d)
          (writeStep (s.counter + stepDelta d) y p s) := by
  rw [exec, execStep_known_next]
  constructor
  · rintro ⟨u, hu, rfl⟩
    obtain ⟨hfit, p, hp, rfl⟩ := seqStep_ok.mp hu
    exact ⟨hfit, p, hp, rfl⟩
  · rintro ⟨hfit, p, hp, rfl⟩
    exact ⟨_, seqStep_ok.mpr ⟨hfit, p, hp, rfl⟩, rfl⟩

/-- At the end of the counter's range STEP is refused (R6, R45). -/
theorem exec_step_known_refused {d : Dir} {y : Style} {s : State} (hc : configOK s.cfg = true)
    (h : ¬ fitsSigned s.cfg.cw (s.counter + stepDelta d)) :
    exec (.step d (.known y)) s = .refused .counterOutOfRange := by
  simp only [exec, execStep, (seqStep_error hc).mpr ⟨h, rfl⟩]

/-- Settles O20: the decoder's clause for `op = 1`, and the two answers of STEP by its style and the range
of the new counter. -/
theorem stepCommandAdvancesOneEntry : Obligations.StepCommandAdvancesOneEntry := by
  refine ⟨fun w now => ?_, fun _ _ => rfl, ?_⟩
  · obtain ⟨-, hstep, -⟩ := decodeIsTheSpecsDecodeFunction w now
    exact hstep
  · rintro d y s n hc hn
    obtain rfl : n = s.counter + stepDelta d := by rw [hn, stepDelta_eq_ite]
    refine ⟨fun hfit => ?_, exec_step_known_refused hc⟩
    obtain ⟨p, hp⟩ := entryAt_some hc y (s.counter + stepDelta d)
    exact ⟨p, hp, exec_step_known_next.mpr ⟨hfit, p, hp, rfl⟩⟩

/-- RELEASE completes in every state (R47). -/
theorem exec_release (s : State) : exec .release s = .next (setResponse .ok 0 (coilDrive 0#4 s)) := rfl

/-- Settles O21: a drive of 0000 is four writes of level 0. -/
theorem releaseDeenergisesAllCoils : Obligations.ReleaseDeenergisesAllCoils := by
  refine ⟨fun w now => ?_, exec_release⟩
  obtain ⟨-, -, hrelease, -⟩ := decodeIsTheSpecsDecodeFunction w now
  exact hrelease

/-- Settles O34: the error, the release and the step of `exec_writes` write no field of the controller. -/
theorem sequencerCommandsLeaveTheController : Obligations.SequencerCommandsLeaveTheController := by
  intro i s t hi h
  rcases exec_writes h with ⟨_, _, -, rfl⟩ | ⟨rfl, rfl⟩ | ⟨rfl, -⟩ | ⟨_, _, _, rfl, rfl⟩ |
    ⟨_, _, _, _, rfl, -⟩
  · exact ⟨rfl, rfl, rfl, rfl, rfl, rfl, rfl, fun _ => ⟨rfl, rfl, rfl⟩⟩
  · exact ⟨rfl, rfl, rfl, rfl, rfl, rfl, rfl, fun _ => ⟨rfl, rfl, rfl⟩⟩
  · simp at hi
  · exact ⟨rfl, rfl, rfl, rfl, rfl, rfl, rfl, nofun⟩
  · simp at hi

/-! ### Sequences of STEP commands -/

/-- The counter is `n`, and the pattern and the coils are the entry of `y`'s table at it: how a successful
STEP of style `y` leaves the sequencer (R45). -/
def StandsAt (y : Style) (n : Int) (t : State) : Prop :=
  t.counter = n ∧ entryAt t.cfg y n = some t.pattern ∧ t.coil = t.pattern

/-- Whatever style was active before, a STEP that completes leaves the sequencer at its own style's entry
(R45, R50). -/
theorem standsAt_of_step {d : Dir} {y : Style} {s t : State}
    (h : exec (.step d (.known y)) s = .next t) : StandsAt y (s.counter + stepDelta d) t := by
  obtain ⟨-, p, hp, rfl⟩ := exec_step_known_next.mp h
  exact ⟨rfl, hp, rfl⟩

/-- Under `ConfigOK` STEP completes when the new counter is in range (R24, R46). -/
theorem exec_step_completes {d : Dir} {y : Style} {s : State} (hc : configOK s.cfg = true)
    (h : fitsSigned s.cfg.cw (s.counter + stepDelta d)) :
    ∃ t, exec (.step d (.known y)) s = .next t := by
  obtain ⟨p, hp⟩ := entryAt_some hc y (s.counter + stepDelta d)
  exact ⟨_, exec_step_known_next.mpr ⟨h, p, hp, rfl⟩⟩

/-- One more of the same command after `k` of them. -/
theorem execAll_replicate_succ {i : Instr} {k : Nat} {s u : State}
    (h : execAll (List.replicate k i) s = .next u) :
    execAll (List.replicate (k + 1) i) s = exec i u := by
  rw [List.replicate_succ', execAll_append, h]
  simp only [execAll]
  cases exec i u <;> rfl

/-- A counter on the way between two counters in range is in range (R6). -/
theorem fitsSigned_on_the_way {w k : Nat} {c : Int} {d : Dir} (h0 : fitsSigned w c)
    (h1 : fitsSigned w (c + (k + 1 : Nat) * stepDelta d)) : fitsSigned w (c + k * stepDelta d) := by
  rw [fitsSigned_iff] at *
  obtain hd | hd := stepDelta_cases d <;> rw [hd] at h1 ⊢ <;> omega

/-- `k` steps of one direction and style, with both ends in the counter's range, complete `k` entries
further (R48, R49); without any step there is no saying what the coils hold. -/
theorem execAll_replicate_step {d : Dir} {y : Style} {s : State} {k : Nat} (hc : configOK s.cfg = true)
    (h0 : fitsSigned s.cfg.cw s.counter) (h1 : fitsSigned s.cfg.cw (s.counter + k * stepDelta d)) :
    ∃ t, execAll (List.replicate k (.step d (.known y))) s = .next t ∧ t.cfg = s.cfg ∧
      t.counter = s.counter + k * stepDelta d ∧
      (1 ≤ k → StandsAt y (s.counter + k * stepDelta d) t) := by
  induction k with
  | zero => exact ⟨s, rfl, rfl, by simp, nofun⟩
  | succ k ih =>
    obtain ⟨u, hu, hcfg, hcounter, -⟩ := ih (fitsSigned_on_the_way h0 h1)
    have hnext : u.counter + stepDelta d = s.counter + (k + 1 : Nat) * stepDelta d := by
      rw [hcounter, Nat.cast_succ, add_one_mul, add_assoc]
    obtain ⟨t, ht⟩ := exec_step_completes (d := d) (y := y) (hcfg ▸ hc) (hnext ▸ hcfg ▸ h1)
    have hstands := hnext ▸ standsAt_of_step ht
    exact ⟨t, (execAll_replicate_succ hu).trans ht, (exec_frame ht).1.trans hcfg, hstands.1,
      fun _ => hstands⟩

/-- R48 for either direction: `m` is `n` for FORWARD and `-n` for BACKWARD. -/
theorem execAll_replicate_step_of_counter_zero {d : Dir} {y : Style} {s : State} {n : Nat} {m : Int}
    (hc : configOK s.cfg = true) (hs : s.counter = 0) (hn : 1 ≤ n) (hm : m = n * stepDelta d)
    (hfit : fitsSigned s.cfg.cw m) :
    ∃ t, execAll (List.replicate n (.step d (.known y))) s = .next t ∧ t.counter = m ∧
      fmod m (table s.cfg y).length < (table s.cfg y).length ∧
      (table s.cfg y)[fmod m (table s.cfg y).length]? = some t.pattern ∧ t.coil = t.pattern := by
  have hend : s.counter + n * stepDelta d = m := by rw [hs, hm, zero_add]
  obtain ⟨t, ht, hcfg, -, hstands⟩ := execAll_replicate_step (d := d) (y := y) (k := n) hc
    (hs ▸ fitsSigned_zero s.cfg.cw) (hend ▸ hfit)
  obtain ⟨hcounter, hentry, hcoil⟩ := hstands hn
  rw [hend] at hcounter hentry
  exact ⟨t, ht, hcounter, fmod_lt m (table_length_pos hc y), hcfg ▸ hentry, hcoil⟩

/-- Settles O40: both directions by `execAll_replicate_step_of_counter_zero`; without a step the pattern is
that of reset. -/
theorem steppingWrapsAroundTheTable : Obligations.SteppingWrapsAroundTheTable := by
  refine ⟨fun s y n hc hs hn => ⟨?_, ?_⟩, fun c _ _ => ⟨State.atReset c, rfl, rfl⟩⟩
  · exact execAll_replicate_step_of_counter_zero hc hs hn (mul_one _).symm
  · exact execAll_replicate_step_of_counter_zero hc hs hn (mul_neg_one _).symm

/-- Settles O41: the way forward ends in a state from which the way back ends at the first counter. -/
theorem forwardThenBackwardRestoresTheCounter : Obligations.ForwardThenBackwardRestoresTheCounter := by
  intro s y k hc hk h0 h1
  obtain ⟨u, hu, hcfg, hcounter, -⟩ := execAll_replicate_step (d := .forward) (y := y) (k := k) hc h0
    (by simpa [stepDelta] using h1)
  have hback : u.counter + k * stepDelta .backward = s.counter := by simp [hcounter, stepDelta]
  obtain ⟨t, ht, htcfg, -, hstands⟩ := execAll_replicate_step (d := .backward) (y := y) (k := k)
    (hcfg ▸ hc) (by simpa [hcfg, hcounter, stepDelta] using h1) (hback ▸ hcfg ▸ h0)
  obtain ⟨hend, hentry, hcoil⟩ := hstands hk
  rw [hback] at hend hentry
  rw [htcfg, hcfg, ← hcoil] at hentry
  refine ⟨t, by rw [execAll_append, hu]; exact ht, hend, hentry, ?_, fun hs => ?_⟩
  · exact (Eq.congr_left hentry).trans (Option.some.injEq _ _).to_iff
  · rw [hs] at hentry
    simpa [entryAt, tableRead, fmod] using hentry

/-- Settles O42: each of the two steps leaves the sequencer at its own style's entry. -/
theorem styleSwitchKeepsTheCounter : Obligations.StyleSwitchKeepsTheCounter := by
  intro s t u d e y z ht hu
  obtain ⟨htcounter, -, -⟩ := standsAt_of_step ht
  obtain ⟨hucounter, hentry, hcoil⟩ := standsAt_of_step hu
  have hcfg : u.cfg = s.cfg := (exec_frame hu).1.trans (exec_frame ht).1
  rw [← hucounter, hcfg] at hentry
  exact ⟨by rw [htcounter, stepDelta_eq_ite], by rw [hucounter, stepDelta_eq_ite], hentry, hcoil⟩

/-! ### RELEASE and the next STEP -/

/-- A second RELEASE finds everything as it would leave it, so any number of them is one (R51). -/
theorem execAll_replicate_release (k : Nat) (s : State) :
    execAll (List.replicate (k + 1) .release) s = .next (setResponse .ok 0 (coilDrive 0#4 s)) := by
  induction k with
  | zero => rfl
  | succ k ih => exact (execAll_replicate_succ ih).trans (exec_release _)

/-- STEP reads neither the coils nor the outputs, all that RELEASE writes (R46, R47). -/
theorem exec_step_known_after_release (d : Dir) (y : Style) (s : State) :
    exec (.step d (.known y)) (setResponse .ok 0 (coilDrive 0#4 s)) = exec (.step d (.known y)) s :=
  calc
    _ = execStep d (.known y) (withLevels s.active s.pattern 0#4 s) :=
      execStep_withOutputs d (.known y) (some ⟨.ok, 0⟩) (driveWrites 0#4) _
    _ = exec (.step d (.known y)) s := by simp only [exec, execStep, seqStep_withLevels]

/-- Settles O43: the releases are one release, and STEP does not read what it wrote. -/
theorem releaseIsIdempotentAndForgottenByTheNextStep :
    Obligations.ReleaseIsIdempotentAndForgottenByTheNextStep := by
  intro s n hn
  obtain ⟨k, rfl⟩ := Nat.exists_eq_add_of_le' hn
  exact ⟨_, execAll_replicate_release k s, rfl, rfl, fun d y => exec_step_known_after_release d y s⟩

end Sys2Proof.Machine
end

section
/-! SUPPORT. 41_valve_controller.md: INIT, RUN and the two queries (R52 to R55), what a RUN that emits a step
is to the sequencer (R56), and the closing movement after INIT (R57, R58). -/

namespace Sys2Proof.Machine

/-! ### INIT and the queries -/

/-- INIT completes in every state (R52). -/
theorem exec_init (s : State) : exec .init s = .next (setResponse .ok 0 (noDrive (armHoming s))) := rfl

/-- Settles O22: the decoder's clause for `op = 3`, and what `armHoming` writes. -/
theorem initDeclaresTheWorstCasePosition : Obligations.InitDeclaresTheWorstCasePosition := by
  refine ⟨fun w now => ?_, exec_init⟩
  obtain ⟨-, -, -, hinit, -⟩ := decodeIsTheSpecsDecodeFunction w now
  exact hinit

theorem exec_getpos_of_unknown {s : State} (hp : s.position = none) :
    exec .getpos s = .next (setResponse .unknownPosition (unknownData s.cfg) (noDrive s)) :=
  exec_of_answersOnly (.inr (.inr (.inl ⟨rfl, hp, .inr ⟨rfl, rfl⟩⟩)))

theorem exec_getpos_of_known {s : State} {p : Int} (hp : s.position = some p) :
    exec .getpos s = .next (setResponse .ok p (noDrive s)) :=
  exec_of_answersOnly (.inl ⟨rfl, .inr (.inl ⟨rfl, hp⟩)⟩)

/-- Settles O26: the decoder's clause for `op = 5`, and the two answers of GETPOS. -/
theorem getposReportsThePosition : Obligations.GetposReportsThePosition := by
  refine ⟨fun w now => ?_, fun s hp => ?_, fun s p hp => exec_getpos_of_known hp⟩
  · obtain ⟨-, -, -, -, -, hgetpos, -⟩ := decodeIsTheSpecsDecodeFunction w now
    exact hgetpos
  · have hdata : unknownData s.cfg = -(2 : Int) ^ (max s.cfg.cw s.cfg.pw - 1) := by
      simp only [unknownData, dataWidth, Nat.cast_pow, Nat.cast_ofNat]
    rw [exec_getpos_of_unknown hp, hdata]
    rfl

theorem exec_isclosed_of_unknown {s : State} (hp : s.position = none) :
    exec .isclosed s = .next (setResponse .unknownPosition 0 (noDrive s)) :=
  exec_of_answersOnly (.inr (.inr (.inl ⟨rfl, hp, .inl ⟨rfl, .inr rfl⟩⟩)))

theorem exec_isclosed_of_known {s : State} {p : Int} (hp : s.position = some p) :
    exec .isclosed s = .next (setResponse .ok (closedData p) (noDrive s)) :=
  exec_of_answersOnly (.inl ⟨rfl, .inr (.inr ⟨rfl, p, hp, rfl⟩)⟩)

/-- Settles O27: the decoder's clause for `op = 6`, and the answers of ISCLOSED by `closedData`. -/
theorem isclosedTestsPositionZero : Obligations.IsclosedTestsPositionZero := by
  refine ⟨fun w now => ?_, fun s hp => exec_isclosed_of_unknown hp,
    fun s hp => exec_isclosed_of_known hp, fun s p hp hne => ?_⟩
  · obtain ⟨-, -, -, -, -, -, hisclosed, -⟩ := decodeIsTheSpecsDecodeFunction w now
    exact hisclosed
  · have hdata : closedData p = 0 := if_neg hne
    rw [exec_isclosed_of_known hp, hdata]
    rfl

/-! ### RUN -/

/-- A RUN at `now` from the known position `p` has a step to emit: `p` is not the target, and the pacing
interval has elapsed (R53). -/
def RunDue (now : Nat) (p : Int) (s : State) : Prop :=
  s.position = some p ∧ p ≠ s.targetPosition ∧ s.nextStepTime ≤ now

/-- The state after a RUN that emitted a step from position `p`, with the new `next_step_time` and the new
pattern: counter and position move by the same amount (R53, R56). -/
def afterEmission (p : Int) (time : Nat) (e : Pattern) (s : State) : State :=
  setResponse .ok 0 (recordEmission (p + positionDelta s.targetDir) time
    (writeStep (s.counter + positionDelta s.targetDir) s.cfg.eevStyle e s))

@[simp] theorem afterEmission_cfg (p : Int) (time : Nat) (e : Pattern) (s : State) :
    (afterEmission p time e s).cfg = s.cfg := rfl
@[simp] theorem afterEmission_counter (p : Int) (time : Nat) (e : Pattern) (s : State) :
    (afterEmission p time e s).counter = s.counter + positionDelta s.targetDir := rfl
@[simp] theorem afterEmission_position (p : Int) (time : Nat) (e : Pattern) (s : State) :
    (afterEmission p time e s).position = some (p + positionDelta s.targetDir) := rfl

theorem stepDelta_sequencerDir (t : TargetDir) : stepDelta (sequencerDir t) = positionDelta t := by
  cases t <;> rfl

theorem positionDelta_eq_ite (t : TargetDir) : positionDelta t = if t = .closing then -1 else 1 := by
  cases t <;> rfl

theorem exec_run_of_unknown {s : State} (now : Nat) (hp : s.position = none) :
    exec (.run now) s = .next (setResponse .unknownPosition 0 (noDrive s)) :=
  execRun_next.mpr (.inl ⟨hp, rfl⟩)

/-- At the target, or before `next_step_time`, RUN only answers (R53). -/
theorem exec_run_waits {s : State} {now : Nat} {p : Int} (hp : s.position = some p)
    (h : p = s.targetPosition ∨ now < s.nextStepTime) :
    exec (.run now) s = .next (setResponse .ok 0 (noDrive s)) :=
  execRun_next.mpr (.inr ⟨p, hp, .inl ⟨h, rfl⟩⟩)

theorem exec_run_of_due {s : State} {now : Nat} {p : Int} (h : RunDue now p s) :
    exec (.run now) s = emitStep now p s := by
  obtain ⟨hp, hne, hdue⟩ := h
  simp only [exec, execRun, hp, if_neg hne, if_neg (not_lt.mpr hdue)]

/-- When an emission completes, and with what (R45, R53). -/
theorem emitStep_next_iff {now : Nat} {p : Int} {s t : State} :
    emitStep now p s = .next t ↔
      ∃ d e, speedRead s.cfg s.targetLevel = some d ∧ fitsUnsigned s.cfg.tw (now + d) ∧
        fitsSigned s.cfg.cw (s.counter + positionDelta s.targetDir) ∧
        entryAt s.cfg s.cfg.eevStyle (s.counter + positionDelta s.targetDir) = some e ∧
        fitsSigned s.cfg.pw (p + positionDelta s.targetDir) ∧ t = afterEmission p (now + d) e s := by
  simp only [emitStep_next, seqStep_ok, stepDelta_sequencerDir]
  constructor
  · rintro ⟨d, _, hd, htime, ⟨hcount, e, he, rfl⟩, hpos, rfl⟩
    exact ⟨d, e, hd, htime, hcount, he, hpos, rfl⟩
  · rintro ⟨d, e, hd, htime, hcount, he, hpos, rfl⟩
    exact ⟨d, _, hd, htime, ⟨hcount, e, he, rfl⟩, hpos, rfl⟩

theorem emitStep_time_refused {s : State} {now d : Nat} {p : Int}
    (hd : speedRead s.cfg s.targetLevel = some d) (h : ¬ fitsUnsigned s.cfg.tw (now + d)) :
    emitStep now p s = .refused .timeOutOfRange := by
  simp only [emitStep, hd, if_neg h]

/-- The time is checked before the counter (R53). -/
theorem emitStep_counter_refused {s : State} {now d : Nat} {p : Int} (hc : configOK s.cfg = true)
    (hd : speedRead s.cfg s.targetLevel = some d) (htime : fitsUnsigned s.cfg.tw (now + d))
    (h : ¬ fitsSigned s.cfg.cw (s.counter + positionDelta s.targetDir)) :
    emitStep now p s = .refused .counterOutOfRange := by
  rw [← stepDelta_sequencerDir] at h
  simp only [emitStep, hd, if_pos htime, (seqStep_error hc).mpr ⟨h, rfl⟩]

/-- Settles O23: the decoder's clause for `op = 4`, the two answers without a step, and an emission by what
it finds out of range. -/
theorem runEmitsAtMostOneStep : Obligations.RunEmitsAtMostOneStep := by
  refine ⟨fun w now => ?_, fun s now hp => exec_run_of_unknown now hp,
    fun s now p hp h => exec_run_waits hp h, ?_⟩
  · obtain ⟨-, -, -, -, hrun, -⟩ := decodeIsTheSpecsDecodeFunction w now
    exact hrun
  · intro s now p d δ hc hp hne hdue hd hδ
    rw [← positionDelta_eq_ite] at hδ
    subst hδ
    rw [exec_run_of_due ⟨hp, hne, hdue⟩]
    refine ⟨fun htime => ?_, fun htime hcount => ?_, fun htime hcount hpos => ?_⟩
    · exact emitStep_time_refused hd (mt fitsUnsigned_iff.mp (not_le.mpr htime))
    · exact emitStep_counter_refused hc hd (fitsUnsigned_iff.mpr htime) hcount
    · obtain ⟨e, he⟩ := entryAt_some hc s.cfg.eevStyle (s.counter + positionDelta s.targetDir)
      exact ⟨e, he,
        emitStep_next_iff.mpr ⟨d, e, hd, fitsUnsigned_iff.mpr htime, hcount, he, hpos, rfl⟩⟩

theorem coilWe_of_emitStep {now : Nat} {p : Int} {s t : State} (h : emitStep now p s = .next t) :
    coilWe t = true := by
  obtain ⟨_, _, -, -, -, -, -, rfl⟩ := emitStep_next_iff.mp h
  rfl

/-- A RUN that completes was not due and drove nothing, or was due and drove the coils once (R53). -/
theorem exec_run_cases {now : Nat} {s t : State} (h : exec (.run now) s = .next t) :
    ((∀ p, ¬ RunDue now p s) ∧ coilWe t = false ∧ ∃ st, t = setResponse st 0 (noDrive s)) ∨
    (∃ p, RunDue now p s ∧ coilWe t = true ∧ emitStep now p s = .next t) := by
  rcases execRun_next.mp h with ⟨hp, rfl⟩ | ⟨p, hp, ⟨hidle, rfl⟩ | ⟨hne, hdue, he⟩⟩
  · refine .inl ⟨?_, rfl, _, rfl⟩
    rintro p ⟨hp', -⟩
    simp [hp] at hp'
  · refine .inl ⟨?_, rfl, _, rfl⟩
    rintro q ⟨hq, hne, hdue⟩
    obtain rfl : p = q := Option.some.inj (hp.symm.trans hq)
    exact hidle.elim hne (not_lt.mpr hdue)
  · exact .inr ⟨p, ⟨hp, hne, hdue⟩, coilWe_of_emitStep he, he⟩

/-- What a RUN that drove the coils found and left (R53). -/
theorem exec_run_of_coilWe {now : Nat} {s t : State} (h : exec (.run now) s = .next t)
    (hwe : coilWe t = true) : ∃ p, RunDue now p s ∧ emitStep now p s = .next t := by
  obtain ⟨-, hno, -⟩ | ⟨p, hdue, -, he⟩ := exec_run_cases h
  · simp [hno] at hwe
  · exact ⟨p, hdue, he⟩

/-- Settles O35: of the shapes of `exec_writes` the answer writes no element, INIT the controller alone, and
an emission, which drives the coils, no target. -/
theorem controllerCommandsLeaveTheRest : Obligations.ControllerCommandsLeaveTheRest := by
  intro i s t h
  rcases exec_writes h with ⟨_, _, -, rfl⟩ | ⟨rfl, -⟩ | ⟨rfl, rfl⟩ | ⟨_, _, _, rfl, -⟩ |
    ⟨_, _, _, _, rfl, -, rfl⟩
  · exact ⟨fun _ => ⟨rfl, rfl, rfl, rfl, rfl, rfl, rfl⟩, fun _ => rfl,
      fun _ => ⟨rfl, rfl, rfl, rfl, rfl⟩⟩
  · simp
  · simp
  · simp
  · simp [coilWe, driveWrites]

/-! ### An emitted step as a STEP command -/

/-- The elements of the sequencer, and the configuration it reads, are the same (R11 to R14). -/
def SameSequencer (s t : State) : Prop :=
  s.cfg = t.cfg ∧ s.counter = t.counter ∧ s.active = t.active ∧ s.pattern = t.pattern ∧ s.coil = t.coil

theorem SameSequencer.trans {s t u : State} (hst : SameSequencer s t) (htu : SameSequencer t u) :
    SameSequencer s u := by
  obtain ⟨hcfg, hcounter, hactive, hpattern, hcoil⟩ := hst
  obtain ⟨hcfg', hcounter', hactive', hpattern', hcoil'⟩ := htu
  exact ⟨hcfg.trans hcfg', hcounter.trans hcounter', hactive.trans hactive', hpattern.trans hpattern',
    hcoil.trans hcoil'⟩

/-- STEP reads nothing outside the sequencer (R45, R46). -/
theorem SameSequencer.exec_step {s t u : State} {d : Dir} {y : Style} (h : SameSequencer s t)
    (ht : exec (.step d (.known y)) t = .next u) :
    ∃ v, exec (.step d (.known y)) s = .next v ∧ SameSequencer v u := by
  obtain ⟨hcfg, hcounter, -⟩ := h
  obtain ⟨hfit, e, he, rfl⟩ := exec_step_known_next.mp ht
  rw [← hcfg, ← hcounter] at hfit he
  exact ⟨_, exec_step_known_next.mpr ⟨hfit, e, he, rfl⟩, hcfg, by simp [hcounter], rfl, rfl, rfl⟩

/-- An emission does to the sequencer and the coil lines what STEP does in the direction of the target
(R53, R56). -/
theorem exec_step_of_emitStep {now : Nat} {p : Int} {s t : State} (h : emitStep now p s = .next t) :
    ∃ u, exec (.step (sequencerDir s.targetDir) (.known s.cfg.eevStyle)) s = .next u ∧
      SameSequencer u t ∧ u.coilWrites = t.coilWrites := by
  obtain ⟨d, e, -, -, hcount, he, -, rfl⟩ := emitStep_next_iff.mp h
  rw [← stepDelta_sequencerDir] at hcount he
  refine ⟨_, exec_step_known_next.mpr ⟨hcount, e, he, rfl⟩, ⟨rfl, ?_, rfl, rfl, rfl⟩, rfl⟩
  simp [stepDelta_sequencerDir]

/-- Settles O44: the two directions of `exec_step_of_emitStep`. -/
theorem closingIsBackwardOpeningIsForward : Obligations.ClosingIsBackwardOpeningIsForward := by
  intro s t now h hwe
  obtain ⟨p, ⟨hp, -, -⟩, he⟩ := exec_run_of_coilWe h hwe
  obtain ⟨u, hu, ⟨-, hcounter, hactive, hpattern, hcoil⟩, hwrites⟩ := exec_step_of_emitStep he
  obtain ⟨d, e, -, -, -, -, -, rfl⟩ := emitStep_next_iff.mp he
  refine ⟨p, hp,
    fun hdir => ⟨?_, ?_, u, by rwa [hdir] at hu, hcounter, hactive, hpattern, hcoil, hwrites⟩,
    fun hdir => ⟨?_, ?_, u, by rwa [hdir] at hu, hcounter, hactive, hpattern, hcoil, hwrites⟩⟩ <;>
    simp [hdir, positionDelta, sub_eq_add_neg]

/-! ### The closing movement -/

/-- Under `ConfigOK`, the controller is at position `p` of the movement that INIT starts, toward 0 at speed
level 0 (R52, R57). -/
structure ClosingAt (p : Int) (s : State) : Prop where
  config : configOK s.cfg = true
  position : s.position = some p
  targetPosition : s.targetPosition = 0
  targetDir : s.targetDir = .closing
  targetLevel : s.targetLevel = 0
  bounds : 0 ≤ p ∧ p ≤ homePosition s.cfg

/-- With the invariant a known position is one of a closing movement (R21). -/
theorem closingAt_of_inv {s : State} {p : Int} (h : Inv s) (hp : s.position = some p) :
    ClosingAt p s := by
  obtain ⟨htarget, hdir, hlevel⟩ := h.target
  exact ⟨h.config, hp, htarget, hdir, hlevel, h.positionBound p hp⟩

/-- INIT starts the movement at the home position (R52). -/
theorem closingAt_init {s : State} (h : configOK s.cfg = true) :
    ClosingAt (homePosition s.cfg) (setResponse .ok 0 (noDrive (armHoming s))) := by
  have hhome := (homePosition_bounds h).1
  exact ⟨h, rfl, rfl, rfl, rfl, by omega, le_rfl⟩

namespace ClosingAt

theorem answer {p : Int} {s : State} (h : ClosingAt p s) (st : Status) (data : Int) :
    ClosingAt p (setResponse st data (noDrive s)) :=
  { h with }

theorem runDue_iff {p q : Int} {s : State} (h : ClosingAt p s) {now : Nat} :
    RunDue now q s ↔ q = p ∧ p ≠ 0 ∧ s.nextStepTime ≤ now := by
  rw [RunDue, h.position, h.targetPosition, Option.some.injEq]
  constructor
  · rintro ⟨rfl, hdue⟩
    exact ⟨rfl, hdue⟩
  · rintro ⟨rfl, hdue⟩
    exact ⟨rfl, hdue⟩

/-- A step of the movement: position and counter go down by 1, the pacing clock is set from `now` (R53,
R58). -/
theorem of_emitStep {p : Int} {s t : State} {now d : Nat} (h : ClosingAt p s) (hne : p ≠ 0)
    (hd : speedRead s.cfg 0 = some d) (he : emitStep now p s = .next t) :
    ClosingAt (p - 1) t ∧ t.cfg = s.cfg ∧ t.counter = s.counter - 1 ∧ t.nextStepTime = now + d := by
  have hdir := h.targetDir
  obtain ⟨h0, h1⟩ := h.bounds
  obtain ⟨d', e, hd', -, -, -, -, rfl⟩ := emitStep_next_iff.mp he
  obtain rfl : d = d' := Option.some.inj (hd.symm.trans (h.targetLevel ▸ hd'))
  refine ⟨⟨h.config, ?_, h.targetPosition, hdir, h.targetLevel, by omega, ?_⟩, rfl, ?_, rfl⟩
  · simp [hdir, positionDelta, sub_eq_add_neg]
  · rw [afterEmission_cfg]
    omega
  · simp [hdir, positionDelta, sub_eq_add_neg]

/-- A due RUN of the movement completes where the time and the counter stay in range: the new position
always is (R6, R53). -/
theorem emitStep_completes {p : Int} {s : State} {now d : Nat} (h : ClosingAt p s) (hne : p ≠ 0)
    (hd : speedRead s.cfg 0 = some d) (htime : now + d ≤ 2 ^ s.cfg.tw - 1)
    (hcount : fitsSigned s.cfg.cw (s.counter - 1)) : ∃ t, emitStep now p s = .next t := by
  obtain ⟨h0, h1⟩ := h.bounds
  obtain ⟨e, he⟩ := entryAt_some h.config s.cfg.eevStyle (s.counter - 1)
  have hpos : fitsSigned s.cfg.pw (p - 1) := fitsSigned_position h.config (by omega) (by omega)
  refine ⟨_, emitStep_next_iff.mpr
    ⟨d, e, h.targetLevel ▸ hd, fitsUnsigned_iff.mpr htime, ?_, ?_, ?_, rfl⟩⟩ <;>
    simpa only [h.targetDir, positionDelta, ← sub_eq_add_neg]

/-- Such a RUN emits one step and nothing more, however late it is (R53, R58). -/
theorem exec_run_steps {p : Int} {s : State} {now d : Nat} (h : ClosingAt p s) (hne : p ≠ 0)
    (hdue : s.nextStepTime ≤ now) (hd : speedRead s.cfg 0 = some d)
    (htime : now + d ≤ 2 ^ s.cfg.tw - 1) (hcount : fitsSigned s.cfg.cw (s.counter - 1)) :
    ∃ t, exec (.run now) s = .next t ∧ coilWe t = true ∧ ClosingAt (p - 1) t ∧ t.cfg = s.cfg ∧
      t.counter = s.counter - 1 ∧ t.nextStepTime = now + d := by
  have hrun := exec_run_of_due (h.runDue_iff.mpr ⟨rfl, hne, hdue⟩)
  obtain ⟨t, he⟩ := h.emitStep_completes hne hd htime hcount
  exact ⟨t, hrun.trans he, coilWe_of_emitStep he, h.of_emitStep hne hd he⟩

/-- A RUN of the movement that completes emits a step exactly when one is due (R53). -/
theorem coilWe_iff {p : Int} {s t : State} {now : Nat} (h : ClosingAt p s)
    (ht : exec (.run now) s = .next t) : coilWe t = true ↔ p ≠ 0 ∧ s.nextStepTime ≤ now := by
  obtain ⟨hno, hwe, -⟩ | ⟨q, hdue, hwe, -⟩ := exec_run_cases ht
  · simpa [hwe] using mt (fun hdue => h.runDue_iff.mpr ⟨rfl, hdue⟩) (hno p)
  · obtain ⟨-, hdue⟩ := h.runDue_iff.mp hdue
    exact iff_of_true hwe hdue

/-- A RUN of the movement keeps the position and the sequencer, or takes 1 from the position and does to the
sequencer what STEP BACKWARD of style `EEV_STYLE` does (R56, R57). -/
theorem of_exec_run {p : Int} {s t : State} {now : Nat} (h : ClosingAt p s)
    (ht : exec (.run now) s = .next t) :
    (coilWe t = false ∧ ClosingAt p t ∧ SameSequencer s t) ∨
    (coilWe t = true ∧ ClosingAt (p - 1) t ∧ t.cfg = s.cfg ∧ t.counter = s.counter - 1 ∧
      ∃ u, exec (.step .backward (.known s.cfg.eevStyle)) s = .next u ∧ SameSequencer u t) := by
  obtain ⟨-, hwe, st, rfl⟩ | ⟨q, hdue, hwe, he⟩ := exec_run_cases ht
  · exact .inl ⟨hwe, h.answer st 0, rfl, rfl, rfl, rfl, rfl⟩
  · obtain ⟨rfl, hne, -⟩ := h.runDue_iff.mp hdue
    obtain ⟨d, hd⟩ := speedRead_some h.config
    obtain ⟨hclosing, hcfg, hcounter, -⟩ := h.of_emitStep hne hd he
    obtain ⟨u, hu, hsame, -⟩ := exec_step_of_emitStep he
    rw [h.targetDir] at hu
    exact .inr ⟨hwe, hclosing, hcfg, hcounter, u, hu, hsame⟩

end ClosingAt

/-- Settles O45: INIT leaves the home position, which is not 0, and time 0, before which no `now` lies. -/
theorem firstRunAfterInitSteps : Obligations.FirstRunAfterInitSteps := by
  intro s now d hc hd htime hcount
  have hhome : homePosition s.cfg ≠ 0 := by
    have := (homePosition_bounds hc).1
    omega
  obtain ⟨u, hu, hwe, hclosing, -, hcounter, hnext⟩ :=
    (closingAt_init hc).exec_run_steps hhome (Nat.zero_le now) hd htime hcount
  exact ⟨_, u, exec_init s, hu, hwe, hcounter, hclosing.position, hnext⟩

/-- Settles O46: the emission at `t1` sets the pacing clock to `t1 + d`, and the invariant makes the state
after it one of the closing movement. -/
theorem pacingIsTheElapsedInterval : Obligations.PacingIsTheElapsedInterval := by
  intro s s1 t1 d hinv hd h1 hwe hphase t2
  obtain ⟨p, ⟨hp, hne, -⟩, he⟩ := exec_run_of_coilWe h1 hwe
  have hclosing := closingAt_of_inv hinv hp
  obtain ⟨hclosing1, hcfg, -, hnext⟩ := hclosing.of_emitStep (hclosing.targetPosition ▸ hne) hd he
  obtain ⟨-, -, homing_iff⟩ := phase_iff s1
  obtain ⟨-, haway⟩ := homing_iff.mp hphase
  have hne1 : p - 1 ≠ 0 := by
    intro h0
    rw [hclosing1.position, hclosing1.targetPosition, h0] at haway
    exact haway rfl
  refine ⟨fun hearly => ?_, fun hlate htime hcount => ?_, fun s2 h2 => ?_⟩
  · exact exec_run_waits hclosing1.position (.inr (hnext ▸ hearly))
  · obtain ⟨s2, h2, hwe2, hclosing2, -, hcounter2, hnext2⟩ :=
      hclosing1.exec_run_steps hne1 (hnext ▸ hlate) (hcfg ▸ hd) (hcfg ▸ htime) (hcfg ▸ hcount)
    refine ⟨s2, h2, hwe2, hcounter2, ?_, hnext2⟩
    rw [hclosing2.position, hclosing1.position, Option.map_some]
  · rw [hclosing1.coilWe_iff h2, hnext, and_iff_right hne1]

/-! ### Sequences of RUN commands -/

/-- A list of commands that completes is a first command that completes and the rest after it. -/
theorem execAll_cons_next {i : Instr} {is : List Instr} {s t : State} :
    execAll (i :: is) s = .next t ↔ ∃ u, exec i s = .next u ∧ execAll is u = .next t := by
  rw [execAll]
  cases exec i s <;> simp

theorem stepsEmitted_cons {now : Nat} {ts : List Nat} {s t : State} (h : exec (.run now) s = .next t) :
    stepsEmitted (now :: ts) s = (if coilWe t then 1 else 0) + stepsEmitted ts t := by
  rw [stepsEmitted, h]

/-- RUN commands of the closing movement take the number of emitted steps from the position and the counter,
and do to the sequencer, as any state with the same sequencer shows it, what that many STEP BACKWARD commands
do (R57). -/
theorem ClosingAt.execAll_run {p : Int} {s t v : State} {ns : List Nat} (h : ClosingAt p s)
    (hv : SameSequencer v s) (ht : execAll (ns.map Instr.run) s = .next t) :
    ClosingAt (p - stepsEmitted ns s) t ∧ t.counter = s.counter - stepsEmitted ns s ∧
      ∃ u, execAll (List.replicate (stepsEmitted ns s) (.step .backward (.known s.cfg.eevStyle))) v =
        .next u ∧ SameSequencer u t := by
  induction ns generalizing p s v with
  | nil =>
    cases ht
    exact ⟨by simpa [stepsEmitted] using h, by simp [stepsEmitted], v, rfl, hv⟩
  | cons n ns ih =>
    obtain ⟨s1, h1, ht⟩ := execAll_cons_next.mp ht
    rw [stepsEmitted_cons h1]
    obtain ⟨hwe, hclosing, hsame⟩ | ⟨hwe, hclosing, hcfg, hcounter, u, hu, hsame⟩ := h.of_exec_run h1
    · obtain ⟨hcfg, hcounter, -⟩ := id hsame
      simpa [hwe, hcfg, hcounter] using ih hclosing (hv.trans hsame) ht
    · obtain ⟨v1, hv1, hsame1⟩ := hv.exec_step hu
      obtain ⟨hend, hcount, w, hw, hsamew⟩ := ih hclosing (hsame1.trans hsame) ht
      rw [hcfg] at hw
      simp only [hwe, if_true, Nat.cast_add, Nat.cast_one, Nat.add_comm 1, List.replicate_succ]
      refine ⟨by convert hend using 1; omega, by omega, w, ?_, hsamew⟩
      exact execAll_cons_next.mpr ⟨v1, hv1, hw⟩

/-- Settles O47: INIT leaves the sequencer as it was and starts the movement at the home position; that the
position stays at 0 or above bounds the number of steps. -/
theorem homingIsClosingStepsOfTheSequencer : Obligations.HomingIsClosingStepsOfTheSequencer := by
  rintro s _ t ns hc ⟨⟩ ht
  obtain ⟨hclosing, hcounter, u, hu, -, hucounter, huactive, hupattern, hucoil⟩ :=
    (closingAt_init hc).execAll_run (v := s) ⟨rfl, rfl, rfl, rfl, rfl⟩ ht
  refine ⟨Int.sub_nonneg.mp hclosing.bounds.1, hclosing.position, hcounter,
    ⟨u, hu, hucounter, huactive, hupattern, hucoil⟩, fun hzero now => ?_⟩
  exact exec_run_waits hzero (.inl hclosing.targetPosition.symm)

/-- RUN commands at times that are `SPEEDS[0]` or more apart, as many as the position, all complete, emit a
step each and end at 0 (R57, R58). -/
theorem ClosingAt.execAll_paced_run {s : State} {ns : List Nat} {d : Nat} (h : ClosingAt ns.length s)
    (hd : speedRead s.cfg 0 = some d) (hdue : ∀ n ∈ ns, s.nextStepTime ≤ n)
    (hpaced : ns.Pairwise fun a b => a + d ≤ b) (htime : ∀ n ∈ ns, n + d ≤ 2 ^ s.cfg.tw - 1)
    (h0 : fitsSigned s.cfg.cw s.counter) (h1 : fitsSigned s.cfg.cw (s.counter - ns.length)) :
    ∃ t, execAll (ns.map Instr.run) s = .next t ∧ stepsEmitted ns s = ns.length ∧
      t.counter = s.counter - ns.length ∧ ClosingAt 0 t := by
  induction ns generalizing s with
  | nil => exact ⟨s, rfl, rfl, by simp, h⟩
  | cons n ns ih =>
    obtain ⟨hgap, hpaced⟩ := List.pairwise_cons.mp hpaced
    obtain ⟨hdue, -⟩ := List.forall_mem_cons.mp hdue
    obtain ⟨htime1, htime⟩ := List.forall_mem_cons.mp htime
    rw [List.length_cons, Nat.cast_succ] at h h1
    have hcount : fitsSigned s.cfg.cw (s.counter - 1) := by
      rw [fitsSigned_iff] at *
      omega
    obtain ⟨s1, hs1, hwe, hclosing, hcfg, hcounter, hnext⟩ :=
      h.exec_run_steps (by omega) hdue hd htime1 hcount
    have hend : s1.counter - ns.length = s.counter - (ns.length + 1) := by omega
    obtain ⟨t, ht, hsteps, htcounter, hzero⟩ := ih (by simpa using hclosing) (hcfg ▸ hd)
      (hnext ▸ hgap) hpaced (hcfg ▸ htime) (hcfg ▸ hcounter ▸ hcount) (hcfg ▸ hend ▸ h1)
    refine ⟨t, execAll_cons_next.mpr ⟨s1, hs1, ht⟩, ?_, ?_, hzero⟩
    · rw [stepsEmitted_cons hs1, hwe, hsteps, if_pos rfl, List.length_cons, Nat.add_comm]
    · rw [htcounter, hend, List.length_cons, Nat.cast_succ]

/-- Settles O48: the home position is the number of the RUN commands, and from time 0 each of them is due. -/
theorem pacedHomingEndsClosed : Obligations.PacedHomingEndsClosed := by
  rintro s _ ns d hc ⟨⟩ hd hpaced hlen htime h0 h1
  have hstart : ClosingAt ns.length (setResponse .ok 0 (noDrive (armHoming s))) :=
    hlen ▸ closingAt_init hc
  obtain ⟨t, ht, hsteps, hcounter, hzero⟩ :=
    hstart.execAll_paced_run hd (fun n _ => Nat.zero_le n) hpaced htime h0 h1
  obtain ⟨-, idle_iff, -⟩ := phase_iff t
  exact ⟨t, ht, hsteps, hcounter, hzero.position,
    idle_iff.mpr (by rw [hzero.position, hzero.targetPosition]),
    exec_getpos_of_known hzero.position, exec_isclosed_of_known hzero.position⟩

end Sys2Proof.Machine
end

section
/-! SUPPORT. 60_exceptions.md: the three run-time errors (R60 to R63), who raises each and when, and that an
error changes nothing but the response (R68). -/

namespace Sys2Proof.Machine

/-! ### What ends in an error -/

/-- A command ends in an error exactly when `answersOnly` gives it that status, and then writes the response
alone (R60, R68): every other shape of `exec_writes` responds OK. -/
theorem exec_error_iff {i : Instr} {s t : State} {st : Status} {data : Int} (hst : st ≠ .ok) :
    exec i s = .next t ∧ t.response = some ⟨st, data⟩ ↔
      answersOnly i s st data ∧ t = setResponse st data (noDrive s) := by
  constructor
  · rintro ⟨h, hr⟩
    rcases exec_writes h with ⟨_, _, ha, rfl⟩ | ⟨-, rfl⟩ | ⟨-, rfl⟩ | ⟨_, _, _, -, rfl⟩ |
      ⟨_, _, _, _, -, -, rfl⟩ <;> cases hr
    · exact ⟨ha, rfl⟩
    all_goals exact absurd rfl hst
  · rintro ⟨ha, rfl⟩
    exact ⟨exec_of_answersOnly ha, rfl⟩

/-- Settles O31: the state that `exec_error_iff` gives. -/
theorem errorsChangeNothing : Obligations.ErrorsChangeNothing := by
  intro i s t r h hr hst
  obtain ⟨-, rfl⟩ := (exec_error_iff hst).mp ⟨h, hr⟩
  rfl

/-! ### Who raises which error -/

/-- InvalidArgument is the answer of STEP with the unrecognised style (R61). -/
theorem answersOnly_invalidArgument {i : Instr} {s : State} {data : Int} :
    answersOnly i s .invalidArgument data ↔ data = 0 ∧ ∃ d, i = .step d .unrecognised := by
  simp only [answersOnly, reduceCtorEq, false_and, true_and, false_or, or_false]

/-- UnknownPosition is the answer of RUN, GETPOS and ISCLOSED without a position (R62). -/
theorem answersOnly_unknownPosition {i : Instr} {s : State} {data : Int} :
    answersOnly i s .unknownPosition data ↔ s.position = none ∧
      ((data = 0 ∧ ((∃ now, i = .run now) ∨ i = .isclosed)) ∨
        (data = unknownData s.cfg ∧ i = .getpos)) := by
  simp only [answersOnly, reduceCtorEq, false_and, true_and, false_or, or_false]

/-- Settles O29: `exec_error_iff` at the status that only `answersOnly_invalidArgument` gives. -/
theorem invalidArgumentIsRaisedByUnrecognisedStyleAlone :
    Obligations.InvalidArgumentIsRaisedByUnrecognisedStyleAlone := by
  intro i s
  refine ⟨⟨?_, ?_⟩, fun t d h hr => ?_⟩
  · rintro ⟨t, d, h⟩
    obtain ⟨ha, -⟩ := (exec_error_iff (by decide)).mp h
    obtain ⟨-, hi⟩ := answersOnly_invalidArgument.mp ha
    exact hi
  · intro hi
    exact ⟨_, _, (exec_error_iff (by decide)).mpr ⟨answersOnly_invalidArgument.mpr ⟨rfl, hi⟩, rfl⟩⟩
  · obtain ⟨ha, rfl⟩ := (exec_error_iff (by decide)).mp ⟨h, hr⟩
    obtain ⟨rfl, -⟩ := answersOnly_invalidArgument.mp ha
    rfl

/-- A completed command reports UnknownPosition exactly when it is RUN, GETPOS or ISCLOSED and the position
is unknown (R62). -/
theorem exec_reports_unknownPosition_iff {i : Instr} {s t : State} (h : exec i s = .next t) :
    (∃ d, t.response = some ⟨.unknownPosition, d⟩) ↔
      s.position = none ∧ ((∃ now, i = .run now) ∨ i = .getpos ∨ i = .isclosed) := by
  have hanswer (d : Int) :
      t.response = some ⟨.unknownPosition, d⟩ ↔ answersOnly i s .unknownPosition d := by
    refine ⟨fun hr => ((exec_error_iff (by decide)).mp ⟨h, hr⟩).1, fun ha => ?_⟩
    obtain rfl := Host.Outcome.next.inj (h.symm.trans (exec_of_answersOnly ha))
    rfl
  simp only [hanswer, answersOnly_unknownPosition, exists_and_left, exists_or, exists_and_right,
    exists_eq, true_and]
  tauto

/-- The position stays unknown under every command but INIT (R62). -/
theorem exec_position_unknown_iff {i : Instr} {s t : State} (h : exec i s = .next t) :
    t.position = none ↔ s.position = none ∧ i ≠ .init := by
  rcases exec_writes h with ⟨st, data, ha, rfl⟩ | ⟨rfl, rfl⟩ | ⟨rfl, rfl⟩ | ⟨_, _, _, rfl, rfl⟩ |
    ⟨_, _, _, _, rfl, hp, rfl⟩
  · have hinit : i ≠ .init := by
      rintro rfl
      simp [answersOnly] at ha
    exact (and_iff_left hinit).symm
  · exact (and_iff_left nofun).symm
  · simp
  · exact (and_iff_left nofun).symm
  · simp [hp]

/-- Settles O30: who reports, what an error leaves, and that INIT alone ends the unknown position. -/
theorem unknownPositionIsReportedUntilTheFirstInit :
    Obligations.UnknownPositionIsReportedUntilTheFirstInit :=
  ⟨fun _ => rfl, fun i s t h => ⟨exec_reports_unknownPosition_iff h,
    fun d hr => errorsChangeNothing i s t ⟨_, d⟩ h hr nofun, exec_position_unknown_iff h⟩⟩

/-- A reserved command ends in IllegalCommand in every state (R63). -/
theorem exec_of_reserved {i : Instr} (hi : i = .reserved0 ∨ i = .reserved7) (s : State) :
    exec i s = .next (setResponse .illegalCommand 0 (noDrive s)) :=
  exec_of_answersOnly (.inr (.inr (.inr ⟨rfl, rfl, hi⟩)))

/-- Settles O28: the decoder's clauses for `op = 0` and `op = 7`, and the one answer of a reserved
command. -/
theorem reservedWordsAreIllegalCommands : Obligations.ReservedWordsAreIllegalCommands := by
  refine ⟨fun s w now hw => exec_of_reserved ?_ s, fun s =>
    ⟨exec_of_reserved (.inl rfl) s, exec_of_reserved (.inr rfl) s⟩⟩
  obtain ⟨hop0, -, -, -, -, -, -, hop7⟩ := decodeIsTheSpecsDecodeFunction w now
  exact hw.imp hop0 hop7

end Sys2Proof.Machine
end

section
/-! SUPPORT. 70_reset_and_hazards.md: the reset state (R75), the edge that gives it (R75, R76), and what can
de-energise the coils (R81). -/

namespace Sys2Proof.Machine

/-! ### Reset -/

/-- Settles O14: each field of `State.atReset` has the value that its definition writes. -/
theorem resetStateHasTheListedValues : Obligations.ResetStateHasTheListedValues := fun _ =>
  ⟨rfl, rfl, rfl, rfl, rfl, rfl, rfl, rfl, rfl, rfl, rfl⟩

/-- Settles O51: `ConfigOK` is the invariant's part about the configuration, and the reset values meet the
others. -/
theorem invHoldsAtReset : Obligations.InvHoldsAtReset := fun _ => inv_atReset

/-- With `rst` the edge resets, and no other input is looked at (R42, R75). -/
theorem step_of_reset {s : State} (hc : configOK s.cfg = true) (hrst : (presented s).rst = true) :
    step s = .next (applyReset (consume s)) := by
  simp only [step, edgeEvent, hc, hrst, if_true]

/-- Settles O13: the edge ends in `applyReset`, which leaves no response on the port, and of the host's
inputs the ones after this edge. -/
theorem resetEdgeGivesTheResetState : Obligations.ResetEdgeGivesTheResetState := by
  intro s v w now rest hc hinputs
  have hrst : (presented s).rst = true := by rw [presented_of_cons hinputs]
  have hrest : (applyReset (consume s)).hostInputs = rest := by
    rw [applyReset_hostInputs, consume_hostInputs, hinputs, List.tail_cons]
  obtain ⟨hvalid, hstatus, hdata⟩ := rspPorts_of_no_response (applyReset_response (consume s))
  exact ⟨_, step_of_reset hc hrst, rfl, rfl, rfl, rfl, rfl, rfl, rfl, rfl, rfl, rfl, rfl, rfl,
    hvalid, hstatus, hdata, rfl, hrest⟩

/-! ### De-energising -/

/-- A completed command leaves the levels of the coils, is RELEASE, or drives a table entry (R27, R45). -/
theorem exec_coil_cases {i : Instr} {s t : State} (h : exec i s = .next t) :
    t.coil = s.coil ∨ i = .release ∨ ∃ y n, entryAt s.cfg y n = some t.coil := by
  rcases exec_next h with ⟨_, _, rfl, -⟩ | ⟨hrelease, -⟩ | ⟨-, rfl⟩ | ⟨d, y, u, -, hu, rfl⟩ |
    ⟨now, p, -, -, -, -, he⟩
  · exact .inl rfl
  · exact .inr (.inl hrelease)
  · exact .inl rfl
  · obtain ⟨-, e, he, rfl⟩ := seqStep_ok.mp hu
    exact .inr (.inr ⟨y, _, he⟩)
  · obtain ⟨_, e, -, -, -, hentry, -, rfl⟩ := emitStep_next_iff.mp he
    exact .inr (.inr ⟨s.cfg.eevStyle, _, hentry⟩)

/-- Settles O49: what `exec_coil_cases` leaves beside RELEASE is the old levels or a table entry, and a RUN
at the target only answers. -/
theorem onlyReleaseDeenergisesTheCoils : Obligations.OnlyReleaseDeenergisesTheCoils := by
  refine ⟨fun i s t hentries hcoil hi h => ?_, fun s now hphase => ?_⟩
  · rcases exec_coil_cases h with hkept | hrelease | ⟨y, n, hentry⟩
    · rwa [hkept]
    · exact absurd hrelease hi
    · exact hentries y n t.coil hentry
  · obtain ⟨-, idle_iff, -⟩ := phase_iff s
    exact ⟨_, exec_run_waits (idle_iff.mp hphase) (.inl rfl), rfl, rfl⟩

end Sys2Proof.Machine
end

section
/-! SUPPORT. What the model refuses by its own choice (log entries 5, 6 and 8): a time that the port cannot
carry (R40), a speed level outside `SPEEDS` (R24), and a position outside its range (R6). -/

namespace Sys2Proof.Machine

/-! ### A time outside the port -/

theorem run_wellFormed_iff {now tw : Nat} : (Instr.run now).wellFormed tw = true ↔ now < 2 ^ tw := by
  rw [Instr.wellFormed, decide_eq_true_iff]
  exact Nat.le_sub_one_iff_lt (Nat.two_pow_pos tw)

/-- A command whose time does not fit the port is refused (R40, log entry 8). -/
theorem step_of_illFormed {s : State} {w : CmdWord} {now : Nat} (hc : configOK s.cfg = true)
    (hp : presented s = ⟨false, true, w, now⟩) (hwf : ¬ (decode w now).wellFormed s.cfg.tw = true) :
    step s = .refused .nowOutOfRange := by
  simp only [step, edgeEvent, hc, hp, hwf, if_true, Bool.false_eq_true, if_false]

/-- Settles O16: the word decodes to RUN, whose only condition is that the time fits. -/
theorem timeOutsideThePortIsRefused : Obligations.TimeOutsideThePortIsRefused := by
  intro s w now rest hc hin hop htime
  obtain ⟨-, -, -, -, hrun, -⟩ := decodeIsTheSpecsDecodeFunction w now
  refine step_of_illFormed hc (presented_of_cons hin) ?_
  rw [hrun hop, run_wellFormed_iff]
  exact not_lt.mpr htime

/-! ### An emission outside its ranges -/

/-- The speed is read before anything else of an emission (R53, log entry 6). -/
theorem emitStep_level_refused {s : State} {now : Nat} {p : Int}
    (h : speedRead s.cfg s.targetLevel = none) : emitStep now p s = .refused .speedLevelOutOfRange := by
  simp only [emitStep, h]

/-- The position is checked last, after the time and the counter (R53, log entry 5). -/
theorem emitStep_position_refused {s : State} {now d : Nat} {p : Int} (hc : configOK s.cfg = true)
    (hd : speedRead s.cfg s.targetLevel = some d) (htime : fitsUnsigned s.cfg.tw (now + d))
    (hcount : fitsSigned s.cfg.cw (s.counter + positionDelta s.targetDir))
    (h : ¬ fitsSigned s.cfg.pw (p + positionDelta s.targetDir)) :
    emitStep now p s = .refused .positionOutOfRange := by
  rw [← stepDelta_sequencerDir] at hcount
  obtain ⟨e, he⟩ := entryAt_some hc s.cfg.eevStyle (s.counter + stepDelta (sequencerDir s.targetDir))
  simp only [emitStep, hd, if_pos htime, seqStep_ok.mpr ⟨hcount, e, he, rfl⟩, if_neg h]

/-- Settles O24: the RUN is due, so it is the emission whose last check fails. -/
theorem positionLeavingItsRangeIsRefused : Obligations.PositionLeavingItsRangeIsRefused := by
  intro s now p d δ hc hp hne hdue hd htime hδ hcount hpos
  rw [← positionDelta_eq_ite] at hδ
  subst hδ
  rw [exec_run_of_due ⟨hp, hne, hdue⟩]
  exact emitStep_position_refused hc hd (fitsUnsigned_iff.mpr htime) hcount hpos

/-- Settles O25: the RUN is due, and its speed read is past the end of `SPEEDS`. -/
theorem speedLevelOutsideTheTableIsRefused : Obligations.SpeedLevelOutsideTheTableIsRefused := by
  intro s now p hp hne hdue hlevel
  rw [exec_run_of_due ⟨hp, hne, hdue⟩]
  exact emitStep_level_refused (List.getElem?_eq_none hlevel)

end Sys2Proof.Machine
end
